-- ==== Sys2Proof/Word.lean ====
section
/-! DEFINITION. The widths the DV-208's fields have on the link and in the store, and the two small
index types of the manual: station IDs and lanes. -/

namespace Sys2Proof

/-- One byte of a frame, an item or the store. -/
abbrev Byte := BitVec 8

/-- A 16-bit field (samples, tags, notice details, counters). -/
abbrev Half := BitVec 16

/-- A 32-bit field (digests, serials, milliseconds). -/
abbrev Word := BitVec 32

/-- A slice index: 0 to 4,294,967,295, continuing from 0 (conventions of 00_scope). -/
abbrev Slice := BitVec 32

/-- A station ID, 0 to 15. -/
abbrev StationId := Fin 16

/-- A lane, 0 to 7. -/
abbrev Lane := Fin 8

/-- The sixteen station IDs in ascending order. -/
def allIds : List StationId := [0, 1, 2, 3, 4, 5, 6, 7, 8, 9, 10, 11, 12, 13, 14, 15]

/-- The eight lanes in ascending order. -/
def allLanes : List Lane := [0, 1, 2, 3, 4, 5, 6, 7]

end Sys2Proof
end

