-- ==== Sys2Proof/Config.lean ====
section
/-! DEFINITION. The fixed quantities of the manual that several blocks share, and the free
values of the model. -/

namespace Sys2Proof.Config

/-- Nominal counts of a slice (R1). -/
def sliceCounts : Nat := 240000

/-- Sample periods of a slice (R1). -/
def samplePeriods : Nat := 160

/-- Nominal counts of a sample period (R1). -/
def periodCounts : Nat := 1500

/-- Counts of PAUSE (R128). -/
def pauseCounts : Nat := 4800

/-- Largest window frame proper, in bytes (R36). -/
def windowLimit : Nat := 3560

/-- Largest recall frame proper, in bytes (R36). -/
def recallLimit : Nat := 19960

/-- Room of the read buffer: a recall frame proper less its header and CRC (R144). -/
def recallRoom : Nat := 19940

/-- Capacity of the notice queue (R174). -/
def noticeCapacity : Nat := 64

/-- Capacity of the span table (R82). -/
def spanCapacity : Nat := 160

/-- Capacity of the span outbox (R88). -/
def outboxCapacity : Nat := 64

/-- Capacity of the recall queue (R143). -/
def recallCapacity : Nat := 8

/-- Capacity of the mirror run list (R110). -/
def runCapacity : Nat := 4

/-- Custody records kept (R98). -/
def custodyCapacity : Nat := 4

/-- Capacity of each staging area (R134, R135). -/
def stagingCapacity : Nat := 2

/-- Milliseconds of a day (R16, R17). -/
def dayMs : Nat := 86400000

/-- FREE VALUE (log 6): which of the blocks that raise notices at one instant puts its next notice
into the queue first. R174: such notices "join in either order". It is applied to the counter
`freeUses` of State; nothing in Lean can evaluate it. -/
opaque noticePick : Nat → Nat

/-- FREE VALUE (log 32): the counts by which the cycle of SP_BCK is ahead of the bit period. -/
opaque bitClockPhase : Nat

/-- FREE VALUE (log 32): of the counts of a cycle of SP_BCK, the number it is high beyond the first, taken
modulo the cycle's length less 1. -/
opaque bitClockHigh : Nat

end Sys2Proof.Config
end

