-- ==== Sys2Proof/Machine/Types.lean ====
section
/-! DEFINITION. The named values and records that commands and blocks share: peer kinds, record
conditions, roles, close causes, span keys and span items (R87, Table 11-2). -/

namespace Sys2Proof

/-- What kind of device a peer is (R60, Table 11-2). -/
inductive PeerKind where
  | capture | console | archive
  deriving DecidableEq, Repr

/-- The station state a capture peer's header reports (R37). -/
inductive Activity where
  | run | idle
  deriving DecidableEq, Repr

/-- The record condition (R170). -/
inductive Condition where
  | onRecord | offRecord | recess
  deriving DecidableEq, Repr

/-- The role of a room seat (R166). -/
inductive Role where
  | judge | witness | counsel | juror | interpreter | clerk | other | unused
  deriving DecidableEq, Repr

/-- What the room link's pair carries in one half of a bit cell (R34): near zero differential, or one of the
two polarities. `up` names the polarity of the first half-cell of the frame the station drives. -/
inductive LineLevel where
  | zero | up | down
  deriving DecidableEq, Repr

/-- Why a span closed (5.3). -/
inductive CloseCause where
  | silence | laneFault | condition | realigned | stopped | stationLost | detectOff | superseded
  deriving DecidableEq, Repr

/-- A span key: owner, lane and open slice identify a span in the room (5.3). -/
structure SpanKey where
  owner : StationId
  lane : Lane
  openSlice : Slice
  deriving DecidableEq, Repr

/-- A link key as an item carries it. The acceptance tests of R51 do not bound its owner and lane
bytes, so they are kept as they came (log 23). -/
structure LinkKey where
  owner : Byte
  lane : Byte
  openSlice : Slice
  deriving DecidableEq, Repr

/-- A day number and the milliseconds of that day (R17). -/
structure TimeOfDay where
  day : Half
  ms : Word
  deriving DecidableEq, Repr

/-- What makes a span item an OPEN or a CLOSE item (R87). -/
inductive ItemForm where
  | opened (link : Option LinkKey)
  | closed (endSlice : Slice) (cause : CloseCause)
  deriving DecidableEq, Repr

/-- A span item (R87): key, role, condition, concurrency and CONTINUED flag, the open time of day
when present, and the OPEN or CLOSE part. -/
structure SpanItem where
  key : SpanKey
  role : Role
  condition : Condition
  concurrency : Nat
  continued : Bool
  time : Option TimeOfDay
  form : ItemForm
  deriving DecidableEq, Repr

/-- What one lane's converter drove in one sample period: its valid flag and its sample (R19). -/
structure LaneAnswer where
  valid : Bool
  sample : Half
  deriving DecidableEq, Repr

end Sys2Proof
end

