-- ==== Sys2Proof/Syntax.lean ====
section
/-! DEFINITION. The commands of the DV-208: one constructor per row of spec/opcode_table.json. The
table gives no operands; the operands here are what the spec's rules read at that event from outside
the station: pin levels, line contents, the sample port's answers (log 5). -/

namespace Sys2Proof

/-- The 36 steps of the part. -/
inductive Instr where
  /-- RESET_ASSERTED (R159): RESET_N goes low. -/
  | resetAsserted
  /-- RESET_RELEASED (R159): RESET_N goes high, with the levels of IDS3-IDS0, SCS2-SCS0, SZS1-SZS0, each
  strap's pin 0 the least significant bit. R158 says so of IDS0; of SCS0 and SZS0 it is the model's choice
  (DESIGN CHOICE, log 44). -/
  | resetReleased (ids : BitVec 4) (scs : BitVec 3) (szs : BitVec 2)
  /-- SAMPLE_PERIOD_END (R19, R21): what each of the eight data lines carried in the period's 50 bit
  periods, lane 0 first; bit i of a line is its level in bit period i. -/
  | samplePeriodEnd (lines : List (BitVec 50))
  /-- SLICE_BOUNDARY (R3): `stopN` is the level of STOP_N at the boundary (high is true). -/
  | sliceBoundary (stopN : Bool)
  /-- STEP_BOUNDARY (R14): the planned instant, with the level of STOP_N at it. -/
  | stepBoundary (stopN : Bool)
  /-- PEER_LOST (R65): the loss handling alone, of every entry whose silence count is too high. -/
  | peerLost
  /-- ORPHAN_TIMEOUT (R96): the timeout alone, of every entry whose orphan count is reached. -/
  | orphanTimeout
  /-- LISTEN_END (R161): the end of LISTEN alone, with the level of STOP_N. -/
  | listenEnd (stopN : Bool)
  /-- OWN_WINDOW_START (R43). -/
  | ownWindowStart
  /-- WINDOW_FRAME_SENT (R45). -/
  | windowFrameSent
  /-- WINDOW_FRAME_ABORTED (R46): the half-cells the receiver has read back, from the frame's first. -/
  | windowFrameAborted (read : List LineLevel)
  /-- RECALL_WINDOW_START (R47). -/
  | recallWindowStart
  /-- RECALL_FRAME_SENT (R150). -/
  | recallFrameSent
  /-- RECALL_FRAME_ABORTED (R48): the half-cells the receiver has read back, from the frame's first. -/
  | recallFrameAborted (read : List LineLevel)
  /-- LEAD_IN_FOUND (R50): the counts that pass, within the sample period in progress, until the pattern
  is found, and the counts between the start of its first byte and that instant (log 33). -/
  | leadInFound (wait ago : Nat)
  /-- FRAME_HEADER_RECEIVED (R51): the header's bytes. -/
  | frameHeaderReceived (header : List Byte)
  /-- FRAME_CUT_BY_SILENCE (R51). -/
  | frameCutBySilence
  /-- FRAME_RECEIVED (R51): the bytes of the frame proper. -/
  | frameReceived (frame : List Byte)
  /-- OPEN_ITEM (R91): one OPEN item handed to Spans, with its frame's sender. -/
  | openItem (sender : StationId) (item : SpanItem)
  /-- CLOSE_ITEM (R92): one CLOSE item handed to Spans, with its frame's sender. -/
  | closeItem (sender : StationId) (item : SpanItem)
  /-- SPAN_BEACON (R93): one beacon's entries, with its frame's sender. -/
  | spanBeacon (sender : StationId) (entries : List SpanItem)
  /-- CHARTER (R167): the 272 bytes of the charter body. -/
  | charter (sender : StationId) (body : List Byte)
  /-- CONDITION (R170): the condition code. -/
  | condition (sender : StationId) (code : Byte)
  /-- TIME_MARK (R16): slice E, day D, milliseconds M. -/
  | timeMark (sender : StationId) (slice : Slice) (day : Half) (ms : Word)
  /-- PROBE (R172). -/
  | probe (sender : StationId) (target : Byte) (value : Half)
  /-- STOP (R164). -/
  | stop (sender : StationId) (target : Byte)
  /-- START (R165). -/
  | start (sender : StationId) (target : Byte)
  /-- ARCHIVE_MARK (R107): pairs of station ID byte and slice. -/
  | archiveMark (sender : StationId) (pairs : List (Byte × Slice))
  /-- RECALL (R140). -/
  | recallRequest (sender : StationId) (tag : Half) (holder source mask : Byte) (first last : Slice)
  /-- ST_WAIT_RAISED (R126). -/
  | stWaitRaised
  /-- ST_WAIT_RELEASED (R126). -/
  | stWaitReleased
  /-- PAUSE_END (R128). -/
  | pauseEnd
  /-- REFRESH_TICK (R129). -/
  | refreshTick
  /-- REFRESH_END (R123). -/
  | refreshEnd
  /-- SLOT_WRITE_END (R124). -/
  | slotWriteEnd
  /-- SLOT_READ_END (R125): the bytes of the slot that the DRAM returned other than they were
  written, by offset; none for an undamaged slot. -/
  | slotReadEnd (damage : List (Fin 512 × Byte))
  deriving DecidableEq, Repr

end Sys2Proof
end

