-- ==== Sys2Proof/WellFormed.lean ====
section
/-! DEFINITION. Which commands are well formed: the operand ranges that the layouts (chapter 11) give
and that the operand types do not already fix. `exec` is total on ill-formed commands too. -/

namespace Sys2Proof

/-- The field ranges of R51 for a span item that its types do not already fix. -/
def SpanItem.wf (i : SpanItem) : Bool :=
  decide (i.concurrency ≤ 127) &&
    match i.time with
    | none => true
    | some t => decide (t.ms.toNat < Config.dayMs)

/-- The item is of the OPEN form (R87). -/
def SpanItem.isOpen (i : SpanItem) : Bool :=
  match i.form with
  | .opened _ => true
  | .closed _ _ => false

/-- A well-formed command. -/
def Instr.wf : Instr → Bool
  | .resetAsserted => true
  | .resetReleased _ _ _ => true
  | .samplePeriodEnd lines => decide (lines.length = 8)
  | .sliceBoundary _ => true
  | .stepBoundary _ => true
  | .peerLost => true
  | .orphanTimeout => true
  | .listenEnd _ => true
  | .ownWindowStart => true
  | .windowFrameSent => true
  | .windowFrameAborted read => decide (read.length ≤ 16 * (Config.windowLimit + 8))
  | .recallWindowStart => true
  | .recallFrameSent => true
  | .recallFrameAborted read => decide (read.length ≤ 16 * (Config.recallLimit + 8))
  | .leadInFound wait ago => decide (wait ≤ Config.periodCounts ∧ 24 ≤ ago ∧ ago < 72)
  | .frameHeaderReceived header => decide (16 ≤ header.length)
  | .frameCutBySilence => true
  | .frameReceived frame => decide (20 ≤ frame.length)
  | .openItem _ item => item.wf && item.isOpen
  | .closeItem _ item => item.wf && !item.isOpen
  | .spanBeacon _ entries => entries.all fun i => i.wf && i.isOpen
  | .charter _ body => decide (body.length = 272)
  | .condition _ _ => true
  | .timeMark _ _ _ _ => true
  | .probe _ _ _ => true
  | .stop _ _ => true
  | .start _ _ => true
  | .archiveMark _ pairs => decide (1 ≤ pairs.length ∧ pairs.length ≤ 16)
  | .recallRequest _ _ _ _ _ _ _ => true
  | .stWaitRaised => true
  | .stWaitReleased => true
  | .pauseEnd => true
  | .refreshTick => true
  | .refreshEnd => true
  | .slotWriteEnd => true
  | .slotReadEnd _ => true

end Sys2Proof
end

