-- ==== Sys2Proof/Machine/State.lean ====
section
/-! DEFINITION. The state of the DV-208: every field of the chapters' state tables, block by block,
the pins, the external DRAM's contents, and the queue of waiting commands; and the machine right
after reset release. Plain data throughout. -/

namespace Sys2Proof.Machine

/-! ### Court clock (chapter 1) -/

/-- The discipline states of R5. -/
inductive Discipline where
  | free | selfRef | tracking | locked | realign
  deriving DecidableEq, Repr

/-- A step plan (R13): the planned instant as a count position of the slice in progress, and the
index of the slice that begins there. -/
structure StepPlan where
  count : Nat
  index : Slice
  deriving DecidableEq, Repr

/-- A time mark (R16): slice E, day D, milliseconds M. -/
structure TimeMark where
  slice : Slice
  day : Half
  ms : Word
  deriving DecidableEq, Repr

/-- The clock's fields (table of chapter 1). `elapsed` is the counts of the slice's sample periods that
have ended: with the divider, the count position of R1. `lastIndex` is the index of the slice that ended
last, absent until a slice has ended since reset release (R50); `lastLen` and `prevLen` are the lengths
in counts of that slice and of the one before it, which R8 reads. -/
structure Clock where
  divider : Nat
  samplePos : Nat
  index : Slice
  trim : Int
  applied : Int
  discipline : Discipline
  aligned : Bool
  goodRun : Nat
  badRun : Nat
  plan : Option StepPlan
  mark : Option TimeMark
  elapsed : Nat
  lastIndex : Option Slice
  lastLen : Nat
  prevLen : Nat
  deriving DecidableEq, Repr

/-- R4. -/
def Clock.reset : Clock :=
  { divider := 0, samplePos := 0, index := 0, trim := 0, applied := 0, discipline := .free
    aligned := false, goodRun := 0, badRun := 0, plan := none, mark := none
    elapsed := 0, lastIndex := none, lastLen := Config.sliceCounts, prevLen := Config.sliceCounts }

/-! ### Seat capture (chapter 2) -/

/-- A lane's accumulator (R21). -/
structure Accumulator where
  samples : List Half
  missing : Nat
  largest : Nat
  deriving DecidableEq, Repr

/-- A cleared accumulator (R21). -/
def Accumulator.cleared : Accumulator := { samples := [], missing := 0, largest := 0 }

/-- A lane's fault state and runs (R26, R27); `deadStart` is the slice of the first block of the dead
run, which LANE_FAULT reports (R33). -/
structure LaneFault where
  faulted : Bool
  deadRun : Nat
  liveRun : Nat
  length : Nat
  deadStart : Option Slice
  deriving DecidableEq, Repr

/-- R25. -/
def LaneFault.reset : LaneFault :=
  { faulted := false, deadRun := 0, liveRun := 0, length := 0, deadStart := none }

/-- A block (2.3): the record of one seat for one slice. -/
structure Block where
  lane : Lane
  slice : Slice
  samples : List Half
  missing : Nat
  level : Nat
  gap : Bool
  dead : Bool
  stepped : Bool
  unlocked : Bool
  condition : Condition
  deriving DecidableEq, Repr

/-- The window outcome of an own page (R29 to R31). -/
inductive PageOutcome where
  | awaiting | sent | unsent
  deriving DecidableEq, Repr

/-- A slice page of this station (R29): eight slots in lane order, `none` for ABSENT. -/
structure OwnPage where
  slice : Slice
  stepped : Bool
  outcome : PageOutcome
  slots : List (Option Block)
  deriving DecidableEq, Repr

/-- A mirror page (R108). -/
structure MirrorPage where
  slice : Slice
  source : StationId
  slots : List (Option Block)
  deriving DecidableEq, Repr

/-- Seat capture's fields (table of chapter 2). The page awaiting outcome stands in capture staging
(R134). -/
structure SeatCapture where
  laneCount : Nat
  accs : Vector Accumulator 8
  capturing : Bool
  faults : Vector LaneFault 8
  unsentSlices : Half
  deriving DecidableEq, Repr

/-- R25 and R31, with the strap's lane count. -/
def SeatCapture.reset (lanes : Nat) : SeatCapture :=
  { laneCount := lanes, accs := Vector.replicate 8 Accumulator.cleared, capturing := false
    faults := Vector.replicate 8 LaneFault.reset, unsentSlices := 0 }

/-! ### Room link (chapter 3) -/

/-- The transmitter states. -/
inductive TxState where
  | silent | sendingWindow | sendingRecall
  deriving DecidableEq, Repr

/-- The receiver states (R50). -/
inductive RxState where
  | hunting | receiving | readback
  deriving DecidableEq, Repr

/-- The lead-in instant (R50); `boundaries` counts the slice boundaries that have fallen since. -/
structure LeadIn where
  slice : Slice
  count : Nat
  boundaries : Nat
  deriving DecidableEq, Repr

/-- The items of the periodic plan, in the order of the table of R39. -/
inductive PlanItem where
  | spanBeacon | rosterView | mirrorRuns | counterReport
  deriving DecidableEq, Repr

/-- The frame in flight (R44): what it carries, and the bytes driven on the line. -/
inductive Flight where
  | windowFrame (page : Option Slice) (spanItems notices : Nat) (periodic : List PlanItem)
      (claim : Bool) (bytes : List Byte)
  | recallFrame (items : Nat) (bytes : List Byte)
  deriving DecidableEq, Repr

/-- The link's fields (table of chapter 3). The claim set is a list without repeats. -/
structure Link where
  tx : TxState
  flight : Option Flight
  due : List PlanItem
  rx : RxState
  leadIn : Option LeadIn
  claims : List StationId
  lastHolder : StationId
  holder : Option StationId
  rejects : Half
  collisions : Half
  deriving DecidableEq, Repr

/-- R56. -/
def Link.reset : Link :=
  { tx := .silent, flight := none, due := [], rx := .hunting, leadIn := none, claims := []
    lastHolder := 15, holder := none, rejects := 0, collisions := 0 }

/-! ### Roster (chapter 4) -/

/-- The state of a roster entry. -/
inductive PeerState where
  | absent | present | lost
  deriving DecidableEq, Repr

/-- One roster entry. The advertised mirror source is the header's byte, `none` for 0xFF (log 23).
`agreement` is the digest agreement of R70: `some true` agrees, `some false` differs. -/
structure RosterEntry where
  state : PeerState
  kind : Option PeerKind
  activity : Option Activity
  join : Option Slice
  lastHeard : Option Slice
  silence : Nat
  lastBlock : Option Slice
  digest : Option Word
  mirror : Option Byte
  lock : Bool
  agreement : Option Bool
  deriving DecidableEq, Repr

/-- R58. -/
def RosterEntry.reset : RosterEntry :=
  { state := .absent, kind := none, activity := none, join := none, lastHeard := none, silence := 0
    lastBlock := none, digest := none, mirror := none, lock := false, agreement := none }

/-- The roster: sixteen entries and the two selections. The entry of this station's own ID is not
kept here but computed from this station's state (R59). -/
structure Roster where
  entries : Vector RosterEntry 16
  reference : Option StationId
  mirror : Option StationId
  deriving DecidableEq, Repr

/-- R58. -/
def Roster.reset : Roster :=
  { entries := Vector.replicate 16 RosterEntry.reset, reference := none, mirror := none }

/-! ### Spans (chapter 5) -/

/-- A span detector (5.1). Counts, slices and the open key belong to the states that use them, so in
every other state they are cleared. -/
inductive Detector where
  | disabled
  | quiet
  | onset (count : Nat) (start : Slice)
  | active (lastLoud : Slice) (key : SpanKey)
  | hang (count : Nat) (lastLoud : Slice) (key : SpanKey)
  | faulted
  deriving DecidableEq, Repr

/-- The state of a span entry with the fields that are present exactly in it (5.3). -/
inductive SpanStatus where
  | opened
  | orphaned (count : Nat) (endAt : Slice)
  | closed (endSlice : Slice) (cause : CloseCause)
  deriving DecidableEq, Repr

/-- An entry of the span table replica (5.3). -/
structure SpanEntry where
  key : SpanKey
  role : Role
  status : SpanStatus
  condition : Condition
  link : Option LinkKey
  concurrency : Nat
  continued : Bool
  announcedBy : StationId
  time : Option TimeOfDay
  deriving DecidableEq, Repr

/-- A custody record (R98). -/
structure CustodyRecord where
  peer : StationId
  join : Option Slice
  items : List SpanItem
  deriving DecidableEq, Repr

/-- The span blocks' fields. The table is in insertion order, the outbox and the custody records
oldest first. -/
structure Spans where
  detectors : Vector Detector 8
  table : List SpanEntry
  outbox : List SpanItem
  outboxDrops : Half
  custody : List CustodyRecord
  deriving DecidableEq, Repr

/-- R73 (the defaults have detect on for every seat), R82, R88, R98. -/
def Spans.reset : Spans :=
  { detectors := Vector.replicate 8 .quiet, table := [], outbox := [], outboxDrops := 0
    custody := [] }

/-! ### Retention rings (chapter 6) -/

/-- A page record: slice, source, the lanes marked ABSENT (bit n for lane n), STEPPED and UNSENT (own
ring only, clear in the mirror ring), and the page's place in its ring. -/
structure PageRecord where
  slice : Slice
  source : StationId
  absent : BitVec 8
  stepped : Bool
  unsent : Bool
  place : Nat
  deriving DecidableEq, Repr

/-- A ring: its pages oldest first, its high mark, and the next place to write (R103). -/
structure Ring where
  pages : List PageRecord
  high : Option Slice
  nextPlace : Nat
  deriving DecidableEq, Repr

/-- An empty ring (R102, R113). -/
def Ring.empty : Ring := { pages := [], high := none, nextPlace := 0 }

/-- A run record (R110). -/
structure Run where
  source : StationId
  first : Slice
  last : Slice
  isOpen : Bool
  deriving DecidableEq, Repr

/-- The rings' fields (table of chapter 6). -/
structure Rings where
  own : Ring
  mirror : Ring
  runs : List Run
  marks : Vector (Option Slice) 16
  armed : Vector Bool 16
  unarchived : Half
  deriving DecidableEq, Repr

/-- R102. -/
def Rings.reset : Rings :=
  { own := Ring.empty, mirror := Ring.empty, runs := [], marks := Vector.replicate 16 none
    armed := Vector.replicate 16 true, unarchived := 0 }

/-! ### Store controller (chapter 7) -/

/-- STORE_INIT with its two phases, and READY (R128). -/
inductive StorePhase where
  | pause | initRefresh | ready
  deriving DecidableEq, Repr

/-- The two kinds of page write. -/
inductive PageKind where
  | capture | mirror
  deriving DecidableEq, Repr

/-- The station, slice and lane a read claim names (R133). -/
structure Claim where
  source : StationId
  slice : Slice
  lane : Lane
  deriving DecidableEq, Repr

/-- The operation in progress (R123). A slot write holds the page it writes to, the lane and the 512
bytes; `live` is no once its page write has returned to not begun (R132). -/
inductive StoreOp where
  | refresh
  | writeSlot (kind : PageKind) (page : Nat) (lane : Lane) (bytes : List Byte) (live : Bool)
  | readSlot (claim : Claim) (page : Nat)
  deriving DecidableEq, Repr

/-- A page write in progress: its page is the oldest of its staging area; the ring place it writes to
and the next lane to write (R132). -/
structure PageWrite where
  place : Nat
  lane : Lane
  deriving DecidableEq, Repr

/-- The store controller's fields (table of chapter 7). -/
structure Store where
  phase : StorePhase
  pauseTime : Nat
  initDone : Nat
  ticks : Nat
  debt : Nat
  peak : Nat
  row : BitVec 13
  op : Option StoreOp
  capture : List OwnPage
  mirror : List MirrorPage
  captureWrite : Option PageWrite
  mirrorWrite : Option PageWrite
  drops : Half
  reinits : Nat
  deriving DecidableEq, Repr

/-- R127. -/
def Store.reset : Store :=
  { phase := .pause, pauseTime := 0, initDone := 0, ticks := 0, debt := 0, peak := 0, row := 0
    op := none, capture := [], mirror := [], captureWrite := none, mirrorWrite := none, drops := 0
    reinits := 0 }

/-! ### Recall service (chapter 8) -/

/-- The fields of a request record that come from the request, the requester among them. Requests in
the queue differ in these (R143). -/
structure RecallId where
  requester : StationId
  tag : Half
  source : StationId
  mask : BitVec 8
  first : Slice
  last : Slice
  deriving DecidableEq, Repr

/-- A request record. -/
structure RecallRequest where
  id : RecallId
  blocksSent : Nat
  gapsSent : Nat
  deriving DecidableEq, Repr

/-- A place in a request: a slice and lane, or its DONE. -/
inductive Place where
  | slot (slice : Slice) (lane : Lane)
  | done
  deriving DecidableEq, Repr

/-- A cursor or read position: a queued request and a place in it. -/
structure ReadPos where
  request : RecallId
  place : Place
  deriving DecidableEq, Repr

/-- The outcomes a gap item carries (R148). -/
inductive GapOutcome where
  | corrupt | absent | notYet | beforeRetention | missing
  deriving DecidableEq, Repr

/-- A recall item (R148), less the request's identification. A block item carries the record condition's
code byte as the slot read returned it (R145). -/
inductive RecallItem where
  | block (block : Block) (code : Byte) (unsent : Bool)
  | gap (lanes : BitVec 8) (first last : Slice) (outcome : GapOutcome)
  | done (blocks gaps : Nat)
  deriving DecidableEq, Repr

/-- An item of the read buffer, with the request and the place it answers and its handed mark. -/
structure BufferItem where
  request : RecallId
  place : Place
  item : RecallItem
  handed : Bool
  deriving DecidableEq, Repr

/-- A read in flight: the read position it answers, and whether its outcome is to be discarded
(R151, R153). -/
structure ReadInFlight where
  pos : ReadPos
  discard : Bool
  deriving DecidableEq, Repr

/-- The recall service's fields (table of chapter 8). `reading` is yes in a reading period (R144). -/
structure Recall where
  queue : List RecallRequest
  cursor : Option ReadPos
  pos : Option ReadPos
  buffer : List BufferItem
  claim : Option Claim
  inFlight : Option ReadInFlight
  holds : Bool
  reading : Bool
  deriving DecidableEq, Repr

/-- R139. -/
def Recall.reset : Recall :=
  { queue := [], cursor := none, pos := none, buffer := [], claim := none, inFlight := none
    holds := false, reading := false }

/-! ### Station controller (chapter 9) -/

/-- The station states (9.2). -/
inductive Mode where
  | start | listen | run | idle
  deriving DecidableEq, Repr

/-- The charter status. -/
inductive CharterStatus where
  | unsettled | defaulted | adopted
  deriving DecidableEq, Repr

/-- A seat table entry (R166). -/
structure SeatEntry where
  role : Role
  detect : Bool
  link : Option (Fin 128)
  deriving DecidableEq, Repr

/-- A charter body (R166); the seat table holds 128 entries, room seat 0 first. -/
structure Charter where
  serial : Word
  archive : Option StationId
  mirrorShare : Nat
  lossSlices : Nat
  orphanSlices : Nat
  tOpen : Nat
  tClose : Nat
  nOnset : Nat
  nHang : Nat
  seats : List SeatEntry
  deriving DecidableEq, Repr

/-- The defaults of R166. -/
def Charter.defaults : Charter :=
  { serial := 0, archive := none, mirrorShare := 4, lossSlices := 25, orphanSlices := 100
    tOpen := 9, tClose := 8, nOnset := 3, nHang := 80
    seats := List.replicate 128 { role := .other, detect := true, link := none } }

/-- A pending charter with its digest and the console that sent it (R167, R173). -/
structure PendingCharter where
  charter : Charter
  digest : Word
  sender : StationId
  deriving DecidableEq, Repr

/-- The station controller's fields (table of chapter 9). `mode` is absent while RESET_N is low
(R159). `storeSeen` is yes once the store has been READY since reset (R160, R138). -/
structure Control where
  id : StationId
  sizeCode : BitVec 2
  mode : Option Mode
  listen : Nat
  join : Option Slice
  status : CharterStatus
  charter : Charter
  digest : Word
  pendingCharter : Option PendingCharter
  condition : Condition
  pendingCondition : Option Condition
  followed : Option Condition
  correction : Bool
  pendingStop : Option StationId
  pendingStart : Option StationId
  storeSeen : Bool
  deriving DecidableEq, Repr

/-- R159, with the straps' values and the station state given. -/
def Control.reset (id : StationId) (sizeCode : BitVec 2) (mode : Option Mode) : Control :=
  { id := id, sizeCode := sizeCode, mode := mode, listen := 0, join := none, status := .unsettled
    charter := Charter.defaults, digest := 0, pendingCharter := none, condition := .recess
    pendingCondition := none, followed := none, correction := false, pendingStop := none
    pendingStart := none, storeSeen := false }

/-! ### Notices (chapter 10) -/

/-- The 26 kinds of R175, in the order of their codes (Table 11-7). -/
inductive NoticeKind where
  | peerJoined | peerLost | referenceChanged | locked | unlocked | realigned | mirrorSourceChanged
  | custodyTaken | charterAdopted | charterDefaulted | storeReady | laneRestored | stateChanged
  | test | alignmentLost | ringRestarted | storeFault | laneFault | unarchivedOverwrite
  | stagingOverflow | collision | charterRejected | charterIgnored | recallRefused | spanEvicted
  | outboxOverflow
  deriving DecidableEq, Repr

/-- A notice (10, table); its severity is fixed by its kind. -/
structure Notice where
  kind : NoticeKind
  slice : Slice
  subject : Byte
  detail : Half
  deriving DecidableEq, Repr

/-- The blocks that raise notices. -/
inductive Raiser where
  | clock | seat | link | roster | spans | rings | store | recallService | control
  deriving DecidableEq, Repr

/-- A notice raised in the step and not yet in the queue, with the block that raised it. -/
structure Raised where
  raiser : Raiser
  notice : Notice
  deriving DecidableEq, Repr

/-- The notice queue's fields (table of chapter 10). `carried` is the notice count and the dropped
count that the window frame in flight took. -/
structure NoticeQueue where
  entries : List Notice
  dropped : Nat
  droppedSince : Nat
  carried : Option (Nat × Nat)
  deriving DecidableEq, Repr

/-- R174. -/
def NoticeQueue.reset : NoticeQueue :=
  { entries := [], dropped := 0, droppedSince := 0, carried := none }

/-! ### The whole -/

/-- The machine. -/
structure State where
  resetN : Bool
  stopN : Bool
  stWait : Bool
  clock : Clock
  seat : SeatCapture
  link : Link
  roster : Roster
  spans : Spans
  rings : Rings
  store : Store
  dram : List Host.Cell
  server : Recall
  control : Control
  notices : NoticeQueue
  raised : List Raised
  freeUses : Nat
  pending : List Instr
  deriving DecidableEq, Repr

/-- Reasons a step stops the model. The manual gives the station no stopping fault. -/
inductive Fault where
  /-- Raised by SLOT_WRITE_END and SLOT_READ_END when the operation's store page lies outside the P
  pages of R122, an address the spec says does not exist (log 39). Safe: no step starts an operation on
  such a page. -/
  | outsideStore
  deriving DecidableEq, Repr

/-- Reasons a command has no meaning in the model. -/
inductive Refusal where
  /-- A row of the opcode table that has no meaning yet. Safe. No arm of `exec` uses it. -/
  | notModelled (mnemonic : String)
  deriving DecidableEq, Repr

/-- Every block at its reset values, with the straps' values (R4, R25, R56, R58, R73, R82, R88, R98,
R102, R127, R139, R159, R174). -/
def State.fresh (resetN stopN stWait : Bool) (id : StationId) (lanes : Nat) (sizeCode : BitVec 2)
    (mode : Option Mode) (freeUses : Nat) (pending : List Instr) : State :=
  { resetN := resetN, stopN := stopN, stWait := stWait
    clock := Clock.reset, seat := SeatCapture.reset lanes, link := Link.reset
    roster := Roster.reset, spans := Spans.reset, rings := Rings.reset, store := Store.reset
    dram := [], server := Recall.reset, control := Control.reset id sizeCode mode
    notices := NoticeQueue.reset, raised := [], freeUses := freeUses, pending := pending }

/-- The machine right after reset release. The straps' codes (0: ID 0, eight lanes, size code 0) and
the levels of STOP_N (high) and ST_WAIT (released) are the model's choice (log 1). -/
def State.reset : State := State.fresh true true false 0 8 0 (some .start) 0 []

end Sys2Proof.Machine
end

