-- ==== Sys2Proof/Machine/Arith.lean ====
section
/-! DEFINITION. Slice arithmetic (conventions of 00_scope), byte order (R181), the two check
computations (R182, R183), wrapping and saturating counts, and access to fixed tables. -/

namespace Sys2Proof.Machine

/-! ### Fixed tables -/

/-- The entry of index `k`. -/
def look {α : Type} {n : Nat} (v : Vector α n) (k : Fin n) : α := v[k]

/-- The table with the entry of index `k` replaced. -/
def put {α : Type} {n : Nat} (v : Vector α n) (k : Fin n) (x : α) : Vector α n := v.set k x k.isLt

/-- Index `n` as a station ID, when it is one. -/
def stationOf (n : Nat) : Option StationId := if h : n < 16 then some ⟨n, h⟩ else none

/-- Index `n` as a lane, when it is one. -/
def laneOf (n : Nat) : Option Lane := if h : n < 8 then some ⟨n, h⟩ else none

/-! ### Slices -/

/-- The signed modular difference `a - b` of two slice indexes. -/
def sliceDiff (a b : Slice) : Int := (a - b).toInt

/-- Slice `a` is before slice `b`: `b - a`, read as a signed number, is positive. -/
def before (a b : Slice) : Bool := decide (0 < sliceDiff b a)

/-- The later of two slices. -/
def later (a b : Slice) : Slice := if before a b then b else a

/-! ### Counts -/

/-- A 16-bit counter one higher, wrapping from 65,535 to 0. -/
def bump (c : Half) : Half := c + 1

/-- A count one higher, saturating at `limit`. -/
def satSucc (limit n : Nat) : Nat := if n < limit then n + 1 else limit

/-- `n` kept between `lo` and `hi`. -/
def clampInt (lo hi n : Int) : Int := if n < lo then lo else if hi < n then hi else n

/-- A signed number as a 16-bit detail, in two's complement. -/
def signedDetail (n : Int) : Half := BitVec.ofInt 16 n

/-- A slice modulo 65,536. -/
def sliceDetail (s : Slice) : Half := s.setWidth 16

/-- An ID, or 255 for an absent one (R72). -/
def idOr255 : Option StationId → Nat
  | none => 255
  | some k => k.val

/-! ### Bytes -/

/-- A number as one byte. -/
def byte (n : Nat) : Byte := BitVec.ofNat 8 n

/-- `n` bytes of zero (fill). -/
def zeros (n : Nat) : List Byte := List.replicate n 0

/-- A 16-bit field, least significant byte first (R181). -/
def le16 (x : Half) : List Byte := [x.setWidth 8, (x >>> 8).setWidth 8]

/-- A 32-bit field, least significant byte first (R181). -/
def le32 (x : Word) : List Byte :=
  [x.setWidth 8, (x >>> 8).setWidth 8, (x >>> 16).setWidth 8, (x >>> 24).setWidth 8]

/-- The byte at an offset (0 beyond the end; every reader checks the length first). -/
def byteAt (bs : List Byte) (i : Nat) : Byte := bs.getD i 0

/-- The 16-bit field at an offset. -/
def half16 (bs : List Byte) (i : Nat) : Half := byteAt bs (i + 1) ++ byteAt bs i

/-- The 32-bit field at an offset. -/
def word32 (bs : List Byte) (i : Nat) : Word :=
  (byteAt bs (i + 3) ++ byteAt bs (i + 2)) ++ (byteAt bs (i + 1) ++ byteAt bs i)

/-- One bit as a bit vector of any width. -/
def flagBit (w : Nat) (b : Bool) (i : Nat) : BitVec w :=
  if b then BitVec.twoPow w i else 0

/-- `n` 16-bit fields from the head of a list. -/
def halves : Nat → List Byte → List Half
  | 0, _ => []
  | n + 1, bs => half16 bs 0 :: halves n (bs.drop 2)

/-- Read `n` things one after another. -/
def takeMany {α : Type} (f : List Byte → Option (α × List Byte)) :
    Nat → List Byte → Option (List α × List Byte)
  | 0, bs => some ([], bs)
  | n + 1, bs =>
    match f bs with
    | none => none
    | some (x, rest) =>
      match takeMany f n rest with
      | none => none
      | some (xs, rest') => some (x :: xs, rest')

/-! ### Check computations -/

/-- One bit of the CRC-32 of R182. -/
def crc32Bit (reg : Word) (bit : Bool) : Word :=
  if reg.getLsbD 0 == bit then reg >>> 1 else (reg >>> 1) ^^^ 0xEDB88320#32

/-- One byte of the CRC-32, least significant bit first. -/
def crc32Byte (reg : Word) (b : Byte) : Word :=
  [0, 1, 2, 3, 4, 5, 6, 7].foldl (fun r i => crc32Bit r (b.getLsbD i)) reg

/-- The CRC-32 of R182. -/
def crc32 (bs : List Byte) : Word := ~~~(bs.foldl crc32Byte 0xFFFFFFFF#32)

/-- One bit of the check word of R183. -/
def crc16Bit (reg : Half) (bit : Bool) : Half :=
  if reg.getLsbD 15 == bit then reg <<< 1 else (reg <<< 1) ^^^ 0x1021#16

/-- One byte of the check word, most significant bit first. -/
def crc16Byte (reg : Half) (b : Byte) : Half :=
  [7, 6, 5, 4, 3, 2, 1, 0].foldl (fun r i => crc16Bit r (b.getLsbD i)) reg

/-- The check word of R183. -/
def crc16 (bs : List Byte) : Half := bs.foldl crc16Byte 0xFFFF#16

end Sys2Proof.Machine
end

