-- ==== Sys2Proof/Machine/Flags.lean ====
section
/-! DEFINITION. The computed values that travel as flags and levels: a block's level and flags (R22,
R23), the accumulator (R21), the lane fault state (R26, R27), a notice's severity (R175). -/

namespace Sys2Proof.Machine

/-- The absolute value of a 16-bit sample: 32,768 for -32,768 (R21). -/
def magnitude (x : Half) : Nat := x.toInt.natAbs

/-- One answer taken into an accumulator (R21): after the 160th sample nothing is added. -/
def Accumulator.take (a : Accumulator) (r : LaneAnswer) : Accumulator :=
  if a.samples.length < Config.samplePeriods then
    if r.valid then
      { samples := a.samples ++ [r.sample], missing := a.missing
        largest := if a.largest < magnitude r.sample then magnitude r.sample else a.largest }
    else
      { samples := a.samples ++ [0], missing := a.missing + 1, largest := a.largest }
  else a

/-- The smallest `n` of the list for which `m` is below 2 to the power `n`, else 16. -/
def levelFrom (m : Nat) : List Nat → Nat
  | [] => 16
  | n :: ns => if m < 2 ^ n then n else levelFrom m ns

/-- The level of a block: the significant bits of its largest magnitude (R22). -/
def level (largest : Nat) : Nat :=
  levelFrom largest [0, 1, 2, 3, 4, 5, 6, 7, 8, 9, 10, 11, 12, 13, 14, 15]

/-- The block completed from an accumulator (R23, R24): positions whose sample period did not end are
missing zeros. -/
def completeBlock (a : Accumulator) (lane : Lane) (slice : Slice) (stepped unlocked : Bool)
    (condition : Condition) : Block :=
  let untaken := Config.samplePeriods - a.samples.length
  let missing := a.missing + untaken
  { lane := lane, slice := slice, samples := a.samples ++ List.replicate untaken 0
    missing := missing, level := level a.largest
    gap := decide (1 ≤ missing ∧ missing ≤ 159), dead := decide (missing = 160)
    stepped := stepped, unlocked := unlocked, condition := condition }

/-- How a completed block changed its lane's fault state. -/
inductive FaultChange where
  | none | enteredFault | restored
  deriving DecidableEq, Repr

/-- R26 and R27: a completed block updates its lane's fault state. On LANE_FAULT the second component
is the slice of the first of the ten dead blocks, on LANE_RESTORED the third is the faulted length. -/
def LaneFault.update (f : LaneFault) (b : Block) : LaneFault × FaultChange × Slice × Nat :=
  if f.faulted then
    let len := satSucc 65535 f.length
    if b.dead then ({ f with liveRun := 0, length := len }, .none, 0, 0)
    else if f.liveRun + 1 ≥ 100 then
      (LaneFault.reset, .restored, 0, len)
    else ({ f with liveRun := f.liveRun + 1, length := len }, .none, 0, 0)
  else if b.dead then
    let first := f.deadStart.getD b.slice
    if f.deadRun + 1 ≥ 10 then
      ({ LaneFault.reset with faulted := true }, .enteredFault, first, 0)
    else ({ f with deadRun := f.deadRun + 1, deadStart := some first }, .none, 0, 0)
  else ({ f with deadRun := 0, deadStart := none }, .none, 0, 0)

/-- Whether a notice's severity is ALERT (R175). -/
def NoticeKind.isAlert : NoticeKind → Bool
  | .peerJoined | .peerLost | .referenceChanged | .locked | .unlocked | .realigned
  | .mirrorSourceChanged | .custodyTaken | .charterAdopted | .charterDefaulted | .storeReady
  | .laneRestored | .stateChanged | .test => false
  | .alignmentLost | .ringRestarted | .storeFault | .laneFault | .unarchivedOverwrite
  | .stagingOverflow | .collision | .charterRejected | .charterIgnored | .recallRefused
  | .spanEvicted | .outboxOverflow => true

/-- The ALERT_N line: high (true) unless an ALERT entry is held, and while RESET_N is low (R177). -/
def State.alertN (s : State) : Bool := !(s.resetN && s.notices.entries.any fun n => n.kind.isAlert)

end Sys2Proof.Machine
end

