-- ==== Sys2Proof/Machine/Operands.lean ====
section
/-! DEFINITION. The layouts of chapter 11: codes, block records, span items, notices, periodic items,
requests, the charter body, window and recall frames and store slots, written (what the station sends
and stores) and read (what it receives and fetches, with the acceptance tests of R51). -/

namespace Sys2Proof.Machine

/-! ### Codes (Table 11-2) -/

def peerKindCode : PeerKind → Byte
  | .capture => 1
  | .console => 2
  | .archive => 3

def peerKindOf (b : Byte) : Option PeerKind :=
  match b.toNat with
  | 1 => some .capture
  | 2 => some .console
  | 3 => some .archive
  | _ => none

def activityCode : Option Activity → Byte
  | none => 0
  | some .run => 1
  | some .idle => 2

/-- The station state code of a header; the outer `none` is a code that names nothing. -/
def activityOf (b : Byte) : Option (Option Activity) :=
  match b.toNat with
  | 0 => some none
  | 1 => some (some .run)
  | 2 => some (some .idle)
  | _ => none

def conditionCode : Condition → Byte
  | .onRecord => 1
  | .offRecord => 2
  | .recess => 3

def conditionOf (b : Byte) : Option Condition :=
  match b.toNat with
  | 1 => some .onRecord
  | 2 => some .offRecord
  | 3 => some .recess
  | _ => none

def roleCode : Role → Byte
  | .judge => 1
  | .witness => 2
  | .counsel => 3
  | .juror => 4
  | .interpreter => 5
  | .clerk => 6
  | .other => 7
  | .unused => 8

def roleOf (n : Nat) : Option Role :=
  match n with
  | 1 => some .judge
  | 2 => some .witness
  | 3 => some .counsel
  | 4 => some .juror
  | 5 => some .interpreter
  | 6 => some .clerk
  | 7 => some .other
  | 8 => some .unused
  | _ => none

def causeCode : CloseCause → Byte
  | .silence => 1
  | .laneFault => 2
  | .condition => 3
  | .realigned => 4
  | .stopped => 5
  | .stationLost => 6
  | .detectOff => 7
  | .superseded => 8

def causeOf (b : Byte) : Option CloseCause :=
  match b.toNat with
  | 1 => some .silence
  | 2 => some .laneFault
  | 3 => some .condition
  | 4 => some .realigned
  | 5 => some .stopped
  | 6 => some .stationLost
  | 7 => some .detectOff
  | 8 => some .superseded
  | _ => none

def gapCode : GapOutcome → Byte
  | .corrupt => 1
  | .absent => 2
  | .notYet => 3
  | .beforeRetention => 4
  | .missing => 5

/-- Table 11-7. -/
def noticeCode : NoticeKind → Byte
  | .peerJoined => 0x01
  | .peerLost => 0x02
  | .referenceChanged => 0x03
  | .locked => 0x04
  | .unlocked => 0x05
  | .realigned => 0x06
  | .mirrorSourceChanged => 0x07
  | .custodyTaken => 0x08
  | .charterAdopted => 0x09
  | .charterDefaulted => 0x0A
  | .storeReady => 0x0B
  | .laneRestored => 0x0C
  | .stateChanged => 0x0D
  | .test => 0x0E
  | .alignmentLost => 0x0F
  | .ringRestarted => 0x10
  | .storeFault => 0x11
  | .laneFault => 0x12
  | .unarchivedOverwrite => 0x13
  | .stagingOverflow => 0x14
  | .collision => 0x15
  | .charterRejected => 0x16
  | .charterIgnored => 0x17
  | .recallRefused => 0x18
  | .spanEvicted => 0x19
  | .outboxOverflow => 0x1A

def planCode : PlanItem → Byte
  | .spanBeacon => 1
  | .rosterView => 2
  | .mirrorRuns => 3
  | .counterReport => 4

/-- An optional ID, 0xFF when absent. -/
def idCode : Option StationId → Byte
  | none => 0xFF
  | some k => byte k.val

/-- The lead-in (R36, 11.2). -/
def leadInBytes : List Byte := [0xAA, 0xAA, 0xAA, 0xAA, 0xAA, 0xAA, 0x6E, 0xC5]

/-! ### Blocks (Tables 11-3, 11-4) -/

/-- The block flags byte; `unsent` is bit 4, clear in a window frame. -/
def Block.flagsByte (b : Block) (unsent : Bool) : Byte :=
  flagBit 8 b.gap 0 ||| flagBit 8 b.dead 1 ||| flagBit 8 b.stepped 2 ||| flagBit 8 b.unlocked 3
    ||| flagBit 8 unsent 4

/-- 160 samples as 320 bytes. -/
def sampleBytes (xs : List Half) : List Byte := xs.flatMap le16

/-- A block record of a window frame, 332 bytes. -/
def Block.bytes (b : Block) : List Byte :=
  le32 b.slice ++ [byte b.lane.val, byte b.missing, byte b.level, b.flagsByte false,
    conditionCode b.condition, 0, 0, 0] ++ sampleBytes b.samples

/-- One block record, with the block tests of R51. -/
def readBlock (bs : List Byte) : Option (Block × List Byte) :=
  if bs.length < 332 then none
  else
    match laneOf (byteAt bs 4).toNat, conditionOf (byteAt bs 8) with
    | some lane, some condition =>
      if (byteAt bs 5).toNat ≤ 160 ∧ (byteAt bs 6).toNat ≤ 16 then
        some ({ lane := lane, slice := word32 bs 0, samples := halves 160 (bs.drop 12)
                missing := (byteAt bs 5).toNat, level := (byteAt bs 6).toNat
                gap := (byteAt bs 7).getLsbD 0, dead := (byteAt bs 7).getLsbD 1
                stepped := (byteAt bs 7).getLsbD 2, unlocked := (byteAt bs 7).getLsbD 3
                condition := condition }, bs.drop 332)
      else none
    | _, _ => none

/-- The blocks all carry one slice index and lie in strictly increasing lane order (R51). -/
def blocksInOrder : List Block → Bool
  | [] => true
  | [_] => true
  | a :: b :: rest => decide (a.slice = b.slice ∧ a.lane < b.lane) && blocksInOrder (b :: rest)

/-! ### Span items (Table 11-5) -/

def linkBytes (l : LinkKey) : List Byte := [l.owner, l.lane, 0, 0] ++ le32 l.openSlice

def timeBytes (t : TimeOfDay) : List Byte := le16 t.day ++ [0, 0] ++ le32 t.ms

/-- The descriptor byte. -/
def itemDescriptor (i : SpanItem) : Byte :=
  (match i.form with
    | .opened link => 1 ||| flagBit 8 link.isSome 3
    | .closed _ _ => 2) ||| flagBit 8 i.time.isSome 2 ||| flagBit 8 i.continued 4

/-- A span item: the 16 common bytes, then close part, time part and link part. -/
def itemBytes (i : SpanItem) : List Byte :=
  [itemDescriptor i, byte i.key.owner.val, byte i.key.lane.val, roleCode i.role] ++ le32 i.key.openSlice
    ++ [conditionCode i.condition, byte i.concurrency, 0, 0, 0, 0, 0, 0]
    ++ (match i.form with
        | .opened _ => []
        | .closed e c => le32 e ++ [causeCode c, 0, 0, 0])
    ++ (match i.time with
        | none => []
        | some t => timeBytes t)
    ++ (match i.form with
        | .opened (some l) => linkBytes l
        | .opened none => []
        | .closed _ _ => [])

/-- The size of a span item (R87). -/
def itemSize (i : SpanItem) : Nat :=
  16 + (if i.time.isSome then 8 else 0) +
    match i.form with
    | .opened link => if link.isSome then 8 else 0
    | .closed _ _ => 8

/-- The time part of an item whose descriptor says it has one; the outer `none` fails R51. -/
def readTime (has : Bool) (bs : List Byte) : Option (Option TimeOfDay) :=
  if has then
    if (word32 bs 4).toNat < Config.dayMs then
      some (some { day := half16 bs 0, ms := word32 bs 4 })
    else none
  else some none

/-- The fields common to both kinds, with the tests of R51. -/
def readSpanCommon (bs : List Byte) (time : Option TimeOfDay) (form : ItemForm) : Option SpanItem :=
  match stationOf (byteAt bs 1).toNat, laneOf (byteAt bs 2).toNat, roleOf (byteAt bs 3).toNat,
      conditionOf (byteAt bs 8) with
  | some owner, some lane, some role, some condition =>
    if (byteAt bs 9).toNat ≤ 127 then
      some { key := { owner := owner, lane := lane, openSlice := word32 bs 4 }, role := role
             condition := condition, concurrency := (byteAt bs 9).toNat
             continued := (byteAt bs 0).getLsbD 4, time := time, form := form }
    else none
  | _, _, _, _ => none

/-- One span item from the head of the list. The inner `none` is an item of a kind that is neither
OPEN nor CLOSE, which takes its length from its flags and is not applied (R181's text). -/
def readSpanItem (bs : List Byte) : Option (Option SpanItem × List Byte) :=
  let d := byteAt bs 0
  let kind := (d &&& 3).toNat
  let hasTime := d.getLsbD 2
  let timeLen := if hasTime then 8 else 0
  let hasLink := d.getLsbD 3 && decide (kind = 1)
  let len := 16 + (if kind = 2 then 8 else 0) + timeLen + (if hasLink then 8 else 0)
  if bs.length < 16 ∨ bs.length < len then none
  else
    match kind with
    | 1 =>
      match readTime hasTime (bs.drop 16) with
      | none => none
      | some time =>
        let part := bs.drop (16 + timeLen)
        let link : Option LinkKey :=
          if hasLink then
            some { owner := byteAt part 0, lane := byteAt part 1, openSlice := word32 part 4 }
          else none
        match readSpanCommon bs time (.opened link) with
        | none => none
        | some i => some (some i, bs.drop len)
    | 2 =>
      match causeOf (byteAt bs 20), readTime hasTime (bs.drop 24) with
      | some cause, some time =>
        match readSpanCommon bs time (.closed (word32 bs 16) cause) with
        | none => none
        | some i => some (some i, bs.drop len)
      | _, _ => none
    | _ => some (none, bs.drop len)

/-! ### Notices (Table 11-6) -/

/-- A notice item, 12 bytes. -/
def Notice.bytes (n : Notice) : List Byte :=
  [noticeCode n.kind, if n.kind.isAlert then 2 else 1, n.subject, 0] ++ le32 n.slice
    ++ le16 n.detail ++ [0, 0]

/-! ### Periodic items (Tables 11-8, 11-9) -/

/-- The 4-byte header of a periodic item. -/
def periodicHeader (kind : PlanItem) (count length : Nat) : List Byte :=
  [planCode kind, byte count] ++ le16 (BitVec.ofNat 16 length)

/-- A SPAN_BEACON with the given entries (R87). -/
def beaconBytes (entries : List SpanItem) : List Byte :=
  let body := entries.flatMap itemBytes
  periodicHeader .spanBeacon entries.length (4 + body.length) ++ body

/-- One entry of ROSTER_VIEW, 4 bytes (R179). -/
def rosterEntryBytes (e : RosterEntry) : List Byte :=
  match e.state with
  | .absent => [0, 0, 0, 0xFF]
  | st =>
    [if st = .lost then 2 else 1,
      (match e.kind with
        | none => 0
        | some k => peerKindCode k),
      activityCode e.activity ||| flagBit 8 e.lock 2 |||
        (match e.agreement with
          | none => 0
          | some true => 0x08
          | some false => 0x10),
      e.mirror.getD 0xFF]

/-- ROSTER_VIEW, 68 bytes. -/
def rosterViewBytes (entries : List RosterEntry) : List Byte :=
  periodicHeader .rosterView 16 68 ++ entries.flatMap rosterEntryBytes

/-- One run of MIRROR_RUNS, 12 bytes. -/
def runBytes (r : Run) : List Byte :=
  [byte r.source.val, if r.isOpen then 1 else 2, 0, 0] ++ le32 r.first ++ le32 r.last

/-- MIRROR_RUNS (R119). -/
def mirrorRunsBytes (runs : List Run) : List Byte :=
  periodicHeader .mirrorRuns runs.length (4 + 12 * runs.length) ++ runs.flatMap runBytes

/-- COUNTER_REPORT, 32 bytes (R178): the six counters, the trim, the peak debt and the
re-initialisation count. -/
def counterReportBytes (rejects collisions unsent drops unarchived outbox : Half) (trim : Int)
    (peak reinits : Nat) : List Byte :=
  periodicHeader .counterReport 0 32 ++ le16 rejects ++ le16 collisions ++ le16 unsent ++ le16 drops
    ++ le16 unarchived ++ le16 outbox ++ [BitVec.ofInt 8 trim, byte peak]
    ++ le16 (BitVec.ofNat 16 reinits) ++ zeros 12

/-! ### The charter body (Table 11-11) -/

/-- One seat table entry; `none` when it is out of range (R166). -/
def readSeat (seat : Nat) (b0 b1 : Byte) : Option SeatEntry :=
  match roleOf (b0 &&& 0x0F).toNat with
  | none => none
  | some role =>
    let detect := b0.getLsbD 7
    if role = .unused ∧ detect = true then none
    else if b1 = 0xFF then some { role := role, detect := detect, link := none }
    else if h : b1.toNat < 128 then
      if b1.toNat = seat then none
      else some { role := role, detect := detect, link := some ⟨b1.toNat, h⟩ }
    else none

/-- The seat entries from `seat` on; the error is the first seat out of range. -/
def readSeats : Nat → Nat → List Byte → Except Nat (List SeatEntry)
  | 0, _, _ => .ok []
  | n + 1, seat, bs =>
    match readSeat seat (byteAt bs 0) (byteAt bs 1) with
    | none => .error (256 + seat)
    | some e =>
      match readSeats n (seat + 1) (bs.drop 2) with
      | .error k => .error k
      | .ok es => .ok (e :: es)

/-- A charter body of 272 bytes. The error is the detail of CHARTER_REJECTED: the first out-of-range
field in the order of R173. -/
def readCharter (bs : List Byte) : Except Nat Charter :=
  let archive := byteAt bs 4
  let m := (byteAt bs 5).toNat
  let loss := (half16 bs 6).toNat
  let orphan := (half16 bs 8).toNat
  let tOpen := (byteAt bs 10).toNat
  let tClose := (byteAt bs 11).toNat
  let nOnset := (byteAt bs 12).toNat
  let nHang := (half16 bs 14).toNat
  if ¬ (archive = 0xFF ∨ archive.toNat < 16) then .error 1
  else if ¬ m ≤ 4 then .error 2
  else if ¬ (10 ≤ loss ∧ loss ≤ 200) then .error 3
  else if ¬ (50 ≤ orphan ∧ orphan ≤ 1000) then .error 4
  else if ¬ (1 ≤ tOpen ∧ tOpen ≤ 16) then .error 5
  else if ¬ (1 ≤ tClose ∧ tClose ≤ tOpen) then .error 6
  else if ¬ (1 ≤ nOnset ∧ nOnset ≤ 16) then .error 7
  else if ¬ (10 ≤ nHang ∧ nHang ≤ 500) then .error 8
  else
    match readSeats 128 0 (bs.drop 16) with
    | .error k => .error k
    | .ok seats =>
      .ok { serial := word32 bs 0, archive := stationOf archive.toNat, mirrorShare := m
            lossSlices := loss, orphanSlices := orphan, tOpen := tOpen, tClose := tClose
            nOnset := nOnset, nHang := nHang, seats := seats }

/-! ### Requests (Table 11-10) -/

/-- A request item of a known kind and of the length its kind gives. -/
inductive Request where
  | charter (body : List Byte)
  | condition (code : Byte)
  | timeMark (slice : Slice) (day : Half) (ms : Word)
  | probe (target : Byte) (value : Half)
  | stop (target : Byte)
  | start (target : Byte)
  | archiveMark (pairs : List (Byte × Slice))
  | recallRequest (tag : Half) (holder source mask : Byte) (first last : Slice)
  deriving DecidableEq, Repr

/-- The pairs of an ARCHIVE_MARK. -/
def readPairs : Nat → List Byte → List (Byte × Slice)
  | 0, _ => []
  | n + 1, bs => (byteAt bs 0, word32 bs 4) :: readPairs n (bs.drop 8)

/-- A request item's contents: `none` for a kind that names nothing or a length that differs from the
table's, which R171 passes over. -/
def requestOf (bs : List Byte) : Option Request :=
  let len := bs.length
  match (byteAt bs 0).toNat with
  | 1 => if len = 276 then some (.charter (bs.drop 4)) else none
  | 2 => if len = 8 then some (.condition (byteAt bs 4)) else none
  | 3 => if len = 16 then some (.timeMark (word32 bs 4) (half16 bs 8) (word32 bs 12)) else none
  | 4 => if len = 8 then some (.probe (byteAt bs 4) (half16 bs 6)) else none
  | 5 => if len = 8 then some (.stop (byteAt bs 4)) else none
  | 6 => if len = 8 then some (.start (byteAt bs 4)) else none
  | 7 =>
    let n := (byteAt bs 4).toNat
    if 1 ≤ n ∧ n ≤ 16 ∧ len = 8 + 8 * n then some (.archiveMark (readPairs n (bs.drop 8))) else none
  | 8 =>
    if len = 20 then
      some (.recallRequest (half16 bs 4) (byteAt bs 6) (byteAt bs 7) (byteAt bs 8) (word32 bs 12)
        (word32 bs 16))
    else none
  | _ => none

/-- One item that carries its own length in its bytes 2 and 3 (periodic and request items). -/
def readSized (bs : List Byte) : Option (List Byte × List Byte) :=
  let len := (half16 bs 2).toNat
  if bs.length < 4 ∨ len < 4 ∨ bs.length < len then none
  else some (bs.take len, bs.drop len)

/-- One periodic item: a SPAN_BEACON's OPEN entries, nothing for the kinds the station makes no use
of. A beacon whose counted entries do not lie within it, or fail R51, fails the frame (log 13). -/
def readPeriodic (bs : List Byte) : Option (List SpanItem × List Byte) :=
  match readSized bs with
  | none => none
  | some (item, rest) =>
    if byteAt item 0 = 1 then
      match takeMany readSpanItem (byteAt item 1).toNat (item.drop 4) with
      | none => none
      | some (entries, _) => some ((entries.filterMap id).filter SpanItem.isOpen, rest)
    else some ([], rest)

/-! ### Window frames (Table 11-1) -/

/-- What a window frame's header says (R37). -/
structure Header where
  sender : StationId
  kind : PeerKind
  activity : Option Activity
  index : Slice
  join : Slice
  digest : Word
  condition : Condition
  mirror : Option Byte
  lock : Bool
  claim : Bool
  deriving DecidableEq, Repr

/-- An accepted window frame, less the sections the station makes no use of (R52). -/
structure WindowFrame where
  header : Header
  blocks : List Block
  spans : List SpanItem
  beacons : List (List SpanItem)
  requests : List Request
  deriving DecidableEq, Repr

/-- The header's codes (R181's text and R51). A capture peer reports RUN or IDLE. -/
def readHeader (bs : List Byte) : Option Header :=
  match stationOf (byteAt bs 1).toNat, peerKindOf (byteAt bs 2), activityOf (byteAt bs 3),
      conditionOf (byteAt bs 0x10) with
  | some sender, some kind, some activity, some condition =>
    if kind = .capture ∧ activity = none then none
    else
      some { sender := sender, kind := kind, activity := activity, index := word32 bs 4
             join := word32 bs 8, digest := word32 bs 0x0C, condition := condition
             mirror := if byteAt bs 0x11 = 0xFF then none else some (byteAt bs 0x11)
             lock := (byteAt bs 0x12).getLsbD 0, claim := (byteAt bs 0x12).getLsbD 1 }
  | _, _, _, _ => none

/-- The CRC-32 in the last four bytes is that of the bytes before it (R182). -/
def crcGood (bs : List Byte) : Bool :=
  decide (crc32 (bs.take (bs.length - 4)) = word32 (bs.drop (bs.length - 4)) 0)

/-- A window frame that passes every test of R51 but the sender's; `none` otherwise. -/
def readWindow (bs : List Byte) : Option WindowFrame :=
  let nBlocks := (byteAt bs 0x14).toNat
  let nSpans := (byteAt bs 0x15).toNat
  let nNotices := (byteAt bs 0x16).toNat
  let nPeriodic := (byteAt bs 0x17).toNat
  if bs.length < 52 ∨ Config.windowLimit < bs.length ∨ crcGood bs = false ∨ 8 < nBlocks ∨ 24 < nSpans
      ∨ 4 < nNotices ∨ 4 < nPeriodic then none
  else
    match readHeader bs, takeMany readBlock nBlocks ((bs.take (bs.length - 4)).drop 48) with
    | some header, some (blocks, rest1) =>
      if blocksInOrder blocks then
        match takeMany readSpanItem nSpans rest1 with
        | none => none
        | some (spans, rest2) =>
          if rest2.length < 12 * nNotices then none
          else
            match takeMany readPeriodic nPeriodic (rest2.drop (12 * nNotices)) with
            | none => none
            | some (beacons, rest3) =>
              match takeMany readSized (half16 bs 0x18).toNat rest3 with
              | none => none
              | some (requests, rest4) =>
                if rest4 = [] then
                  some { header := header, blocks := blocks, spans := spans.filterMap id
                         beacons := beacons, requests := requests.filterMap requestOf }
                else none
      else none
    | _, _ => none

/-- A header of this station's own frame (R37, Table 11-1). -/
def headerBytes (sender : StationId) (activity : Activity) (index join : Slice) (digest : Word)
    (condition : Condition) (mirror : Option StationId) (lock claim : Bool)
    (dropped blocks spans notices periodic : Nat) : List Byte :=
  [1, byte sender.val, 1, activityCode (some activity)] ++ le32 index ++ le32 join ++ le32 digest
    ++ [conditionCode condition, idCode mirror, flagBit 8 lock 0 ||| flagBit 8 claim 1, byte dropped,
      byte blocks, byte spans, byte notices, byte periodic, 0, 0] ++ zeros 22

/-- A frame as it is driven: lead-in, frame proper, CRC-32 (R36, R182). -/
def lineBytes (proper : List Byte) : List Byte := leadInBytes ++ proper ++ le32 (crc32 proper)

/-- The least length that a header fixes for its frame, from its frame kind and its counts: of a window
frame each span item is at least 16 bytes and each periodic or request item at least 4; of a recall frame
each item is at least 8, and the items are as long as the item bytes field says (log 15). -/
def headerLeastLength (bs : List Byte) : Nat :=
  if byteAt bs 0 = 1 then
    48 + 332 * (byteAt bs 0x14).toNat + 16 * (byteAt bs 0x15).toNat + 12 * (byteAt bs 0x16).toNat
      + 4 * (byteAt bs 0x17).toNat + 4 * (half16 bs 0x18).toNat + 4
  else if byteAt bs 0 = 2 then 16 + max (8 * (half16 bs 2).toNat) (word32 bs 8).toNat + 4
  else 0

/-- A header that fixes a length beyond its kind's limit (R51). -/
def headerTooLong (bs : List Byte) : Bool :=
  if byteAt bs 0 = 1 then decide (Config.windowLimit < headerLeastLength bs)
  else if byteAt bs 0 = 2 then decide (Config.recallLimit < headerLeastLength bs)
  else false

/-! ### Recall frames (Table 11-12) -/

/-- The bytes of a recall item of a request. -/
def recallItemBytes (r : RecallId) (i : RecallItem) : List Byte :=
  let first (kind : Nat) : List Byte :=
    [byte (16 * kind + r.source.val), byte r.requester.val] ++ le16 r.tag
  match i with
  | .block b code unsent =>
    first 1 ++ le32 b.slice ++ [byte b.lane.val, byte b.missing, byte b.level, b.flagsByte unsent,
      code, 0, 0, 0] ++ sampleBytes b.samples
  | .gap lanes f l outcome =>
    first 2 ++ le32 f ++ le32 l ++ [lanes, gapCode outcome, 0, 0]
  | .done blocks gaps => first 3 ++ le16 (BitVec.ofNat 16 blocks) ++ le16 (BitVec.ofNat 16 gaps)

/-- The size of a recall item (R148). -/
def RecallItem.size : RecallItem → Nat
  | .block _ _ _ => 336
  | .gap _ _ _ _ => 16
  | .done _ _ => 8

/-- A recall frame proper less its CRC (11.6). -/
def recallProper (sender : StationId) (index : Slice) (items : List BufferItem) : List Byte :=
  let body := items.flatMap fun i => recallItemBytes i.request i.item
  [2, byte sender.val] ++ le16 (BitVec.ofNat 16 items.length) ++ le32 index
    ++ le32 (BitVec.ofNat 32 body.length) ++ zeros 4 ++ body

/-- One item of a received recall frame, taken by its kind's length; its fields are not tested (log 14). -/
def readRecallItem (bs : List Byte) : Option (Unit × List Byte) :=
  let len :=
    match (byteAt bs 0 >>> 4).toNat with
    | 1 => 336
    | 2 => 16
    | 3 => 8
    | _ => 0
  if len = 0 ∨ bs.length < len then none else some ((), bs.drop len)

/-- The sender of a recall frame that passes every test of R51 but the sender's. -/
def readRecallFrame (bs : List Byte) : Option StationId :=
  let body := (bs.take (bs.length - 4)).drop 16
  if bs.length < 20 ∨ Config.recallLimit < bs.length ∨ crcGood bs = false
      ∨ (word32 bs 8).toNat ≠ body.length then none
  else
    match takeMany readRecallItem (half16 bs 2).toNat body with
    | some (_, []) => stationOf (byteAt bs 1).toNat
    | _ => none

/-! ### Store slots (11.7) -/

/-- Bytes 0x000 to 0x1FD of a slot (R124). `pageFlags`: bit 0 STEPPED, bit 1 own page, bit 2 UNSENT. -/
def slotHeaderBody (slice : Slice) (source : StationId) (lane : Lane) (slot : Option Block)
    (pageFlags : Byte) : List Byte :=
  match slot with
  | none =>
    le32 slice ++ [byte source.val, byte lane.val, 1, 0, 0, 0, 0, pageFlags] ++ zeros 498
  | some b =>
    le32 slice ++ [byte source.val, byte lane.val, 0, byte b.missing, byte b.level,
      b.flagsByte false, conditionCode b.condition, pageFlags] ++ sampleBytes b.samples ++ zeros 178

/-- A whole slot: header, body, fill and check word (R183). -/
def slotBytes (slice : Slice) (source : StationId) (lane : Lane) (slot : Option Block)
    (pageFlags : Byte) : List Byte :=
  let body := slotHeaderBody slice source lane slot pageFlags
  body ++ le16 (crc16 body)

/-- The page flags byte of an own page. -/
def OwnPage.flagsByte (p : OwnPage) : Byte :=
  flagBit 8 p.stepped 0 ||| 2 ||| flagBit 8 (decide (p.outcome = .unsent)) 2

/-- R125: the fetched slot's check word and its slice, source and lane are as they should be. -/
def slotGood (bs : List Byte) (c : Claim) : Bool :=
  decide (crc16 (bs.take 510) = half16 bs 510 ∧ word32 bs 0 = c.slice
    ∧ (byteAt bs 4).toNat = c.source.val ∧ (byteAt bs 5).toNat = c.lane.val)

/-- The block a good slot holds. A condition code that names none of the three, which only damage the
check word misses can leave, is no condition: the block's is then RECESS (the model's choice, log 38),
and the block item carries the code itself as read (`slotCode`). -/
def slotBlock (bs : List Byte) (c : Claim) : Block :=
  { lane := c.lane, slice := word32 bs 0, samples := halves 160 (bs.drop 12)
    missing := (byteAt bs 7).toNat, level := (byteAt bs 8).toNat
    gap := (byteAt bs 9).getLsbD 0, dead := (byteAt bs 9).getLsbD 1
    stepped := (byteAt bs 9).getLsbD 2, unlocked := (byteAt bs 9).getLsbD 3
    condition := (conditionOf (byteAt bs 10)).getD .recess }

/-- The record condition's code byte of a good slot, as read (R145). -/
def slotCode (bs : List Byte) : Byte := byteAt bs 10

/-- The UNSENT bit of a good slot's page flags, which counts for an own page (R145, R148). -/
def slotUnsent (bs : List Byte) : Bool := (byteAt bs 11).getLsbD 2

end Sys2Proof.Machine
end

