-- ==== Sys2Proof/Machine/Ops.lean ====
section
/-! DEFINITION. The operations every block uses: the external DRAM's bytes, raising notices and letting
them join the queue (R174), the views of the station's state and of its own roster entry (R59), and
the partition of the store (R102). -/

namespace Sys2Proof.Machine

/-! ### The DRAM -/

/-- What a byte of the DRAM that no slot write has reached since reset reads as. DESIGN CHOICE
(log 7). -/
def unlistedByte : Byte := 0

/-- The byte at an address. -/
def Memory.read : List Host.Cell → Nat → Byte
  | [], _ => unlistedByte
  | (a, b) :: m, x => if x < a then unlistedByte else if x = a then b else Memory.read m x

/-- Write one byte, keeping the canonical form. -/
def Memory.write : List Host.Cell → Nat → Byte → List Host.Cell
  | [], x, v => if v = unlistedByte then [] else [(x, v)]
  | (a, b) :: m, x, v =>
    if x < a then (if v = unlistedByte then (a, b) :: m else (x, v) :: (a, b) :: m)
    else if x = a then (if v = unlistedByte then m else (x, v) :: m)
    else (a, b) :: Memory.write m x v

/-- The canonical form from an address on: rising addresses, no listed byte equal to what an unlisted
address reads as. -/
def Memory.wfFrom (lo : Nat) : List Host.Cell → Bool
  | [] => true
  | (a, b) :: m => decide (lo ≤ a ∧ b ≠ unlistedByte) && Memory.wfFrom (a + 1) m

/-- The canonical form. -/
def Memory.wf (m : List Host.Cell) : Bool := Memory.wfFrom 0 m

/-- Write bytes one after another from an address. -/
def Memory.writeBytes (m : List Host.Cell) (a : Nat) : List Byte → List Host.Cell
  | [] => m
  | b :: bs => Memory.writeBytes (Memory.write m a b) (a + 1) bs

/-- `n` bytes from an address. -/
def Memory.readBytes (m : List Host.Cell) (a : Nat) : Nat → List Byte
  | 0 => []
  | n + 1 => Memory.read m a :: Memory.readBytes m (a + 1) n

/-- The address of a slot: page `page`, lane `lane` (R122: lanes 0 to 3 in row 2n, 4 to 7 in row
2n + 1, four slots of 512 bytes to a row of 2,048). -/
def slotAddress (page : Nat) (lane : Lane) : Nat := 4096 * page + 512 * lane.val

/-- Store pages P by the size code (R102). -/
def storePages (code : BitVec 2) : Nat := 65536 * 2 ^ code.toNat

/-- The row of the store that holds a slot (R122). -/
def slotRow (page : Nat) (lane : Lane) : Nat := 2 * page + lane.val / 4

/-- The bank of a row and the row's number in it (R122). -/
def bankOf (row : Nat) : Nat × Nat := (row / 8192, row % 8192)

/-! ### The station's own values -/

/-- The station is in RUN or IDLE. -/
def State.active (s : State) : Bool :=
  decide (s.control.mode = some .run ∨ s.control.mode = some .idle)

/-- The station state as its header reports it, absent before RUN or IDLE. -/
def State.activity (s : State) : Option Activity :=
  match s.control.mode with
  | some .run => some .run
  | some .idle => some .idle
  | some .listen => none
  | some .start => none
  | none => none

/-- The present lanes in ascending order (R20). -/
def State.presentLanes (s : State) : List Lane := allLanes.filter fun l => l.val < s.seat.laneCount

/-- The room seat number of a lane of a station. -/
def roomSeat (owner : StationId) (lane : Lane) : Nat := owner.val * 8 + lane.val

/-- A seat's entry in a charter's table. -/
def Charter.seat (c : Charter) (n : Nat) : SeatEntry :=
  c.seats.getD n { role := .other, detect := true, link := none }

/-- The pages of the own ring under mirror share `m` (R102). -/
def ownCapacity (code : BitVec 2) (m : Nat) : Nat := storePages code * (8 - m) / 8

/-- The pages of the mirror ring under mirror share `m` (R102). -/
def mirrorCapacity (code : BitVec 2) (m : Nat) : Nat := storePages code * m / 8

/-- The own ring's capacity now. -/
def State.ownCap (s : State) : Nat := ownCapacity s.control.sizeCode s.control.charter.mirrorShare

/-- The mirror ring's capacity now. -/
def State.mirrorCap (s : State) : Nat :=
  mirrorCapacity s.control.sizeCode s.control.charter.mirrorShare

/-- The own roster entry (R59): ABSENT until RUN or IDLE, then what the station's header reports. -/
def State.ownEntry (s : State) : RosterEntry :=
  match s.activity with
  | none => RosterEntry.reset
  | some a =>
    { RosterEntry.reset with
      state := .present, kind := some .capture, activity := some a, digest := some s.control.digest
      mirror := s.roster.mirror.map fun k => byte k.val
      lock := decide (s.clock.discipline = .locked), agreement := some true }

/-- The roster's entry for an ID; the own ID's is computed (R59). -/
def State.entry (s : State) (k : StationId) : RosterEntry :=
  if k = s.control.id then s.ownEntry else look s.roster.entries k

/-- The page awaiting outcome: the AWAITING page of capture staging (R29, R134). -/
def State.awaitingPage (s : State) : Option OwnPage :=
  s.store.capture.find? fun p => decide (p.outcome = .awaiting)

/-! ### Notices -/

/-- A block raises a notice (R174). It carries the slice in progress; at a boundary the clock's index
has already become that of the slice that begins. -/
def State.raise (s : State) (by_ : Raiser) (kind : NoticeKind) (subject : Nat) (detail : Half) :
    State :=
  { s with
    raised := s.raised ++
      [{ raiser := by_
         notice := { kind := kind, slice := s.clock.index, subject := byte subject
                     detail := detail } }] }

/-- A notice joins the queue's tail, or is dropped and counted when the queue is full (R174). -/
def NoticeQueue.join (inFlight : Bool) (q : NoticeQueue) (n : Notice) : NoticeQueue :=
  if q.entries.length < Config.noticeCapacity then { q with entries := q.entries ++ [n] }
  else
    { q with
      dropped := satSucc 255 q.dropped
      droppedSince := if inFlight then satSucc 255 q.droppedSince else q.droppedSince }

/-- The blocks that raised the notices, in the order each first appears. -/
def raisersOf : List Raised → List Raiser → List Raiser
  | [], acc => acc
  | r :: rs, acc => raisersOf rs (if r.raiser ∈ acc then acc else acc ++ [r.raiser])

/-- The first notice of a block, and the rest. -/
def takeFirst (b : Raiser) : List Raised → Option (Notice × List Raised)
  | [] => none
  | r :: rs =>
    if r.raiser = b then some (r.notice, rs)
    else
      match takeFirst b rs with
      | none => none
      | some (n, rest) => some (n, r :: rest)

/-- The order in which the notices raised at one instant join the queue: each block's own order is
kept; between blocks the order is free (R174, log 6). The second component is the counter of free
values after it. The first argument bounds the recursion; the number of notices is enough. -/
def mergeRaised : Nat → Nat → List Raised → List Notice × Nat
  | 0, c, rs => (rs.map Raised.notice, c)
  | n + 1, c, rs =>
    match raisersOf rs [] with
    | [] => ([], c)
    | [_] => (rs.map Raised.notice, c)
    | b :: bs =>
      let chosen := (b :: bs).getD (Config.noticePick c % (b :: bs).length) b
      match takeFirst chosen rs with
      | none => (rs.map Raised.notice, c)
      | some (x, rest) =>
        let (xs, c') := mergeRaised n (c + 1) rest
        (x :: xs, c')

/-- A window frame is in flight. -/
def State.windowInFlight (s : State) : Bool := decide (s.link.tx = .sendingWindow)

/-- The notices raised in the step join the queue (R174). -/
def State.settleNotices (s : State) : State :=
  let merged := mergeRaised s.raised.length s.freeUses s.raised
  { s with
    notices := merged.1.foldl (NoticeQueue.join s.windowInFlight) s.notices
    freeUses := merged.2
    raised := [] }

end Sys2Proof.Machine
end

