-- ==== Sys2Proof/Machine/Clock.lean ====
section
/-! DEFINITION. The court clock (chapter 1): sample periods and slices, measurement and trim,
discipline states, step plans, time marks. -/

namespace Sys2Proof.Machine

/-- Length in counts of sample period `i` of a slice with applied trim `a` (R1). -/
def periodLength (a : Int) (i : Nat) : Nat :=
  if i < a.natAbs then (if 0 < a then Config.periodCounts + 1 else Config.periodCounts - 1)
  else Config.periodCounts

/-- Length in counts of a slice with applied trim `a` (R1). -/
def sliceLength (a : Int) : Nat := ((Config.sliceCounts : Int) + a).toNat

/-- The bit period of the sample port's frame at a divider value (R19): 30 counts each; the last takes
up what trim adds or removes. -/
def bitPeriod (divider : Nat) : Nat := if divider / 30 < 49 then divider / 30 else 49

/-- Start of window `k` as a count position: byte-time 400 + 3,600 k (R35), which is also the expected
position x of R8 for reference `k`. -/
def windowStart (k : StationId) : Nat := 1200 + 10800 * k.val

/-- The instant of the `k`-th refresh tick after READY, in counts (R129). -/
def tickInstant (k : Nat) : Nat := 375 * k / 2

/-- The count position within the slice, from 0 at its start, which the clock presents to the room link
(R1). -/
def Clock.position (c : Clock) : Nat := c.elapsed + c.divider

/-- `n` counts of the oscillator pass within the sample period (log 4): the divider counts up to the
last count of the period, where SAMPLE_PERIOD_END is awaited. -/
def Clock.pass (c : Clock) (n : Nat) : Clock :=
  { c with
    divider := max c.divider (min (c.divider + n) (periodLength c.applied c.samplePos - 1)) }

/-- A sample period ends (R1, R14): the divider returns to 0 and the sample position advances, staying
at 159 in a lengthened cut slice. -/
def Clock.endPeriod (c : Clock) : Clock :=
  { c with
    divider := 0, samplePos := if c.samplePos < 159 then c.samplePos + 1 else 159
    elapsed := c.elapsed + periodLength c.applied c.samplePos }

/-- The second to fourth actions of R3: the new slice's index, the applied trim, position 0; `len` is
the length of the ended slice. -/
def Clock.turn (c : Clock) (index : Slice) (len : Nat) : Clock :=
  { c with
    index := index, applied := c.trim, samplePos := 0, divider := 0, elapsed := 0
    lastIndex := some c.index, lastLen := len, prevLen := c.lastLen }

/-- Entering SELF, TRACKING or REALIGN, or LOCKED, sets both runs to 0 (R5, R11). -/
def Clock.enter (c : Clock) (d : Discipline) : Clock :=
  { c with discipline := d, goodRun := 0, badRun := 0 }

/-- The correction q of R10. -/
def correction (e : Int) : Int :=
  let q := Int.tdiv e 8
  if q = 0 then (if 0 < e then 1 else if e < 0 then -1 else 0) else q

/-- The new trim of R10. -/
def newTrim (t e : Int) : Int := clampInt (-40) 40 (t + correction e)

/-- The lead-in instant of a pattern whose first byte began `ago` counts ago (R50): the slice and the
count position of the clock at that instant. It lies in the slice in progress or, when the pattern spans
the boundary, in the slice that ended last; there is none before the clock's first slice (log 33). -/
def Clock.instantAgo (c : Clock) (ago : Nat) : Option LeadIn :=
  if ago ≤ c.position then some { slice := c.index, count := c.position - ago, boundaries := 0 }
  else
    match c.lastIndex with
    | none => none
    | some t =>
      if ago ≤ c.lastLen + c.position then
        some { slice := t, count := c.lastLen + c.position - ago, boundaries := 1 }
      else none

/-- The length of the slice `back` slices before the slice in progress (0 is the slice in progress at
its ordinary length). -/
def Clock.lengthBack (c : Clock) (back : Nat) : Nat :=
  match back with
  | 0 => sliceLength c.applied
  | 1 => c.lastLen
  | _ => c.prevLen

/-- The error e and the matched slice of R8. -/
def Clock.measure (c : Clock) (l : LeadIn) (reference : StationId) : Int × Slice :=
  let d : Int := (l.count : Int) - windowStart reference
  if 120000 ≤ d then (d - c.lengthBack l.boundaries, l.slice + 1)
  else if d < -120000 then (d + c.lengthBack (l.boundaries + 1), l.slice - 1)
  else (d, l.slice)

/-- The detail of ALIGNMENT_LOST (R18). When both tests of R9 hold the spec does not say which of them
the detail reports: the model reports the differing index (DESIGN CHOICE, log 34). -/
def alignmentDetail (e : Int) (indexDiffers : Bool) : Half :=
  if indexDiffers then 0xFFFF
  else BitVec.ofNat 16 (if e.natAbs < 65534 then e.natAbs else 65534)

/-- The frame clock SP_FCK: high during bit period 0, low while RESET_N is low (R19). -/
def State.spFck (s : State) : Bool := s.resetN && decide (bitPeriod s.clock.divider = 0)

/-- Length in counts of bit period `b` of the sample period in progress (R19). -/
def Clock.bitPeriodLength (c : Clock) (b : Nat) : Nat :=
  if b < 49 then 30 else periodLength c.applied c.samplePos - 1470

/-- The bit clock SP_BCK: one cycle in every bit period, low while RESET_N is low (R19). Where in the bit
period the high part begins and how long it is, the spec does not say: both are free values (log 32). Nor
does it say how the cycle fills bit period 49 when trim makes that 31 or 29 counts: it is one cycle there
too, with the same two values taken in that length (DESIGN CHOICE, log 32). -/
def State.spBck (s : State) : Bool :=
  let b := bitPeriod s.clock.divider
  let len := s.clock.bitPeriodLength b
  s.resetN &&
    decide ((s.clock.divider - 30 * b + Config.bitClockPhase) % len <
      1 + Config.bitClockHigh % (len - 1))

/-- The counts of PAUSE rise to 4,800, where PAUSE_END is awaited (R128). -/
def Store.pass (x : Store) (n : Nat) : Store :=
  { x with
    pauseTime :=
      if x.phase = .pause then max x.pauseTime (min (x.pauseTime + n) Config.pauseCounts)
      else x.pauseTime }

/-- `n` counts of the oscillator pass with nothing commanded (log 4). -/
def State.countsPass (s : State) (n : Nat) : State :=
  if s.resetN then { s with clock := s.clock.pass n, store := s.store.pass n } else s

/-- The clock replaced. -/
def State.withClock (s : State) (c : Clock) : State := { s with clock := c }

/-- R11, TRACKING: the good run after a measurement, and LOCKED at the eighth. -/
def State.countGood (s : State) (reference : StationId) (e : Int) : State :=
  if e.natAbs ≤ 24 then
    if s.clock.goodRun + 1 ≥ 8 then
      (s.withClock (s.clock.enter .locked)).raise .clock .locked reference.val
        (signedDetail s.clock.trim)
    else s.withClock { s.clock with goodRun := s.clock.goodRun + 1 }
  else s.withClock { s.clock with goodRun := 0 }

/-- R11, LOCKED: the bad run after a measurement, and UNLOCKED at the fourth. -/
def State.countBad (s : State) (reference : StationId) (e : Int) : State :=
  if 48 < e.natAbs then
    if s.clock.badRun + 1 ≥ 4 then
      (s.withClock (s.clock.enter .tracking)).raise .clock .unlocked reference.val
        (signedDetail s.clock.trim)
    else s.withClock { s.clock with badRun := s.clock.badRun + 1 }
  else s.withClock { s.clock with badRun := 0 }

/-- A measurement of the reference's window frame in TRACKING or LOCKED (R8 to R11). -/
def State.measureFrame (s : State) (l : LeadIn) (reference : StationId) (headerIndex : Slice) :
    State :=
  let m := s.clock.measure l reference
  if headerIndex ≠ m.2 ∨ 90 < m.1.natAbs then
    (s.withClock (s.clock.enter .realign)).raise .clock .alignmentLost reference.val
      (alignmentDetail m.1 (decide (headerIndex ≠ m.2)))
  else
    let trimmed := s.withClock { s.clock with trim := newTrim s.clock.trim m.1 }
    if s.clock.discipline = .tracking then trimmed.countGood reference m.1
    else trimmed.countBad reference m.1

/-- The counts of the slices that have ended since a lead-in, from the start of the slice it began in. -/
def Clock.countsSince (c : Clock) (boundaries : Nat) : Nat :=
  match boundaries with
  | 0 => 0
  | 1 => c.lastLen
  | _ => c.lastLen + c.prevLen

/-- The step plan of R13 from a frame of peer `k` with header index `H`: the boundary 240,000 counts
after A - x, as a count position of the slice in progress, and index H + 1. -/
def Clock.planFrom (c : Clock) (l : LeadIn) (k : StationId) (headerIndex : Slice) : StepPlan :=
  { count := l.count + Config.sliceCounts - windowStart k - c.countsSince l.boundaries
    index := headerIndex + 1 }

/-- Some capture peer with an ID below `k` is PRESENT in RUN or IDLE (R15). -/
def State.lowerCapture (s : State) (k : StationId) : Bool :=
  allIds.any fun j => decide (j < k ∧ (s.entry j).state = .present ∧
    (s.entry j).kind = some .capture ∧ (s.entry j).activity.isSome = true)

/-- The second hand-over of R52: the lead-in instant of an accepted window frame, after the roster has
applied its header. -/
def State.clockFrame (s : State) (h : Header) (l : LeadIn) : State :=
  match s.clock.discipline with
  | .free =>
    if h.kind = .capture ∧ h.activity.isSome ∧ s.clock.aligned = false ∧ s.clock.plan = none
        ∧ s.lowerCapture h.sender = false then
      s.withClock { s.clock with plan := some (s.clock.planFrom l h.sender h.index) }
    else s
  | .selfRef => s
  | .tracking =>
    if s.roster.reference = some h.sender then s.measureFrame l h.sender h.index else s
  | .locked =>
    if s.roster.reference = some h.sender then s.measureFrame l h.sender h.index else s
  | .realign =>
    if s.roster.reference = some h.sender ∧ s.clock.plan = none then
      s.withClock { s.clock with plan := some (s.clock.planFrom l h.sender h.index) }
    else s

/-- The clock's reaction to a new reference in RUN or IDLE (R6). `old` is the reference followed
before. -/
def State.followReference (s : State) (old new : Option StationId) : State :=
  let own := decide (new = some s.control.id)
  match s.clock.discipline with
  | .free => s
  | .selfRef => if own then s else s.withClock (s.clock.enter .tracking)
  | .tracking => s.withClock (s.clock.enter (if own then .selfRef else .tracking))
  | .locked =>
    (s.withClock (s.clock.enter (if own then .selfRef else .tracking))).raise .clock .unlocked
      (idOr255 old) (signedDetail s.clock.trim)
  | .realign =>
    if own then s.withClock { s.clock.enter .selfRef with plan := none }
    else s.withClock { s.clock with plan := none }

/-- The clock leaves FREE at the end of LISTEN (R7). -/
def State.leaveFree (s : State) : State :=
  s.withClock { s.clock.enter
      (if s.roster.reference = some s.control.id then .selfRef else .tracking) with
    aligned := false }

/-- The jump of a step from the cut slice to the new index (R14), saturated as R18 gives. -/
def jumpDetail (cut new : Slice) : Half :=
  signedDetail (clampInt (-32768) 32767 (sliceDiff new (cut + 1)))

/-- A step boundary's own changes of the clock (R14, R15), after the index has been set: the plan is
discarded; a join alignment sets the aligned flag, a realignment enters TRACKING and raises
REALIGNED. -/
def State.takeStep (s : State) (cut : Slice) : State :=
  if s.clock.discipline = .free then
    s.withClock { s.clock with plan := none, aligned := true }
  else
    (s.withClock { s.clock.enter .tracking with plan := none }).raise .clock .realigned
      (idOr255 s.roster.reference) (jumpDetail cut s.clock.index)

/-- R16: a valid TIME_MARK replaces the held mark. -/
def Clock.takeMark (c : Clock) (slice : Slice) (day : Half) (ms : Word) : Clock :=
  if ms.toNat < Config.dayMs then { c with mark := some { slice := slice, day := day, ms := ms } }
  else c

/-- The time of day of a slice under a mark (R17). -/
def timeUnder (m : TimeMark) (s : Slice) : TimeOfDay :=
  let total : Int := (m.ms.toNat : Int) + 10 * sliceDiff s m.slice
  { day := m.day + BitVec.ofInt 16 (total / (Config.dayMs : Int))
    ms := BitVec.ofInt 32 (total % (Config.dayMs : Int)) }

/-- The time of day of a slice, when a mark is held (R17). -/
def Clock.timeOfDay (c : Clock) (s : Slice) : Option TimeOfDay :=
  match c.mark with
  | none => none
  | some m => some (timeUnder m s)

end Sys2Proof.Machine
end

