-- ==== Sys2Proof/Machine/RetentionRings.lean ====
section
/-! DEFINITION. The retention rings (chapter 6): page writes, overwrites and archive marks, the run
list, restarts, lookups. -/

namespace Sys2Proof.Machine

/-- The rings replaced. -/
def State.withRings (s : State) (r : Rings) : State := { s with rings := r }

/-! ### Restarts (R113) -/

/-- The ring held at least one page or a present high mark. -/
def Ring.held (r : Ring) : Bool := !r.pages.isEmpty || r.high.isSome

/-- Causes of RING_RESTARTED (R120). -/
def causeResplit : Half := 1
def causeBackwardOwn : Half := 2
def causeBackwardMirror : Half := 3
def causeStoreFault : Half := 4

/-- The own ring restarts (R113). -/
def State.restartOwn (s : State) (cause : Half) : State :=
  let s' := s.withRings { s.rings with own := Ring.empty }
  if s.rings.own.held then s'.raise .rings .ringRestarted 0 cause else s'

/-- The mirror ring restarts, and its run list is emptied (R113). -/
def State.restartMirror (s : State) (cause : Half) : State :=
  let s' := s.withRings { s.rings with mirror := Ring.empty, runs := [] }
  if s.rings.mirror.held then s'.raise .rings .ringRestarted 1 cause else s'

/-! ### Archive marks and overwrites -/

/-- A slice is after the archive mark held for a station; an absent mark archives nothing (R106). -/
def Rings.unarchivedSlice (r : Rings) (source : StationId) (slice : Slice) : Bool :=
  match look r.marks source with
  | none => true
  | some m => before m slice

/-- A page removed from a ring is judged as an overwrite (R106). -/
def State.judge (s : State) (p : PageRecord) : State :=
  if s.rings.unarchivedSlice p.source p.slice then
    let counted := s.withRings { s.rings with
      unarchived := bump s.rings.unarchived, armed := put s.rings.armed p.source false }
    if look s.rings.armed p.source then
      counted.raise .rings .unarchivedOverwrite p.source.val (sliceDetail p.slice)
    else counted
  else s

/-- One pair of an ARCHIVE_MARK (R107). -/
def Rings.takePair (r : Rings) (pair : Byte × Slice) : Rings :=
  match stationOf pair.1.toNat with
  | none => r
  | some k =>
    if r.unarchivedSlice k pair.2 then
      { r with marks := put r.marks k (some pair.2), armed := put r.armed k true }
    else r

/-- The pairs of an ARCHIVE_MARK, in list order (R107). -/
def Rings.takePairs (r : Rings) (pairs : List (Byte × Slice)) : Rings := pairs.foldl Rings.takePair r

/-! ### Runs -/

/-- Every run CLOSED; at most the last is OPEN (R112). -/
def closeRuns (runs : List Run) : List Run := runs.map fun r => { r with isOpen := false }

/-- The OPEN run becomes CLOSED (R112). -/
def State.closeRun (s : State) : State := s.withRings { s.rings with runs := closeRuns s.rings.runs }

/-- The OPEN run of a source, if there is one. -/
def openRunOf (runs : List Run) (k : StationId) : Option Run :=
  runs.find? fun r => r.isOpen && decide (r.source = k)

/-- The head run loses its first page (R111). -/
def loseFirst : List Run → List Run
  | [] => []
  | r :: rs => if r.first = r.last then rs else { r with first := r.first + 1 } :: rs

/-- The tail run loses its last page (R111). -/
def loseLast : List Run → List Run
  | [] => []
  | [r] => if r.first = r.last then [] else [{ r with last := r.last - 1 }]
  | r :: rs => r :: loseLast rs

/-- A slice lies in a run's range. -/
def Run.covers (r : Run) (s : Slice) : Bool := !before s r.first && !before r.last s

/-- A page belongs to a run (R110). -/
def Run.holds (r : Run) (p : PageRecord) : Bool := decide (p.source = r.source) && r.covers p.slice

/-! ### Page writes (R103) -/

/-- The lanes a page marks ABSENT, bit n for lane n. -/
def absentMask (slots : List (Option Block)) : BitVec 8 :=
  allLanes.foldl
    (fun m l =>
      match slots.getD l.val none with
      | none => m ||| flagBit 8 true l.val
      | some _ => m) 0

/-- The oldest page, when the ring is full, is removed and judged (R103, R106). -/
def State.makeRoomOwn (s : State) : State :=
  if s.rings.own.pages.length < s.ownCap then s
  else
    match s.rings.own.pages with
    | [] => s
    | p :: rest => (s.withRings { s.rings with own := { s.rings.own with pages := rest } }).judge p

/-- The write of a capture page begins (R103, R105). The place it occupies is the own ring's next. -/
def State.beginOwn (s : State) (page : OwnPage) : State :=
  let s1 :=
    match s.rings.own.high with
    | none => s
    | some h => if before h page.slice then s else s.restartOwn causeBackwardOwn
  s1.makeRoomOwn

/-- The write of a capture page has completed at a place (R103). -/
def State.completeOwn (s : State) (page : OwnPage) (place : Nat) : State :=
  s.withRings { s.rings with
    own :=
      { pages := s.rings.own.pages ++
          [{ slice := page.slice, source := s.control.id, absent := absentMask page.slots
             stepped := page.stepped, unsent := decide (page.outcome = .unsent), place := place }]
        high := some page.slice
        nextPlace := (place + 1) % s.ownCap } }

/-- The newest page given up at a handover (R109, R111): it leaves the tail of the page list and its
place becomes the next to write. -/
def State.handover (s : State) : State :=
  match s.rings.mirror.pages.getLast? with
  | none => s
  | some p =>
    s.withRings { s.rings with
      mirror := { s.rings.mirror with pages := s.rings.mirror.pages.dropLast, nextPlace := p.place }
      runs := loseLast s.rings.runs }

/-- The source of the mirror ring's newest page. -/
def Rings.newestSource (r : Rings) : Option StationId :=
  match r.mirror.pages.getLast? with
  | none => none
  | some p => some p.source

/-- The oldest mirror page, when the ring is full, is removed, judged and taken from its run (R103,
R106, R111). -/
def State.makeRoomMirror (s : State) : State :=
  if s.rings.mirror.pages.length < s.mirrorCap then s
  else
    match s.rings.mirror.pages with
    | [] => s
    | p :: rest =>
      (s.withRings { s.rings with
        mirror := { s.rings.mirror with pages := rest }, runs := loseFirst s.rings.runs }).judge p

/-- The write of a mirror page begins (R103, R109). -/
def State.beginMirror (s : State) (page : MirrorPage) : State :=
  let s1 :=
    match s.rings.mirror.high with
    | none => s
    | some h =>
      if before page.slice h then s.restartMirror causeBackwardMirror
      else if page.slice = h then
        if s.rings.newestSource = some page.source then s.restartMirror causeBackwardMirror
        else s.handover
      else s
  s1.makeRoomMirror

/-- The oldest run is given up with its pages, each judged (R110). -/
def State.giveUpOldestRun (s : State) : State :=
  match s.rings.runs with
  | [] => s
  | r :: rs =>
    (s.rings.mirror.pages.takeWhile r.holds).foldl State.judge
      (s.withRings { s.rings with
        mirror := { s.rings.mirror with pages := s.rings.mirror.pages.dropWhile r.holds }
        runs := rs })

/-- The run list after a mirror page of source `k` and slice `t` (R110), when no run need be given
up. -/
def extendRuns (runs : List Run) (k : StationId) (t : Slice) : List Run :=
  runs.map fun r =>
    if r.isOpen = true ∧ r.source = k ∧ r.last + 1 = t then { r with last := t } else r

/-- The page extends the OPEN run (R110). -/
def extendsOpen (runs : List Run) (k : StationId) (t : Slice) : Bool :=
  runs.any fun r => decide (r.isOpen = true ∧ r.source = k ∧ r.last + 1 = t)

/-- The write of a mirror page has completed at a place (R103, R110). -/
def State.completeMirror (s : State) (page : MirrorPage) (place : Nat) : State :=
  let s1 :=
    if extendsOpen s.rings.runs page.source page.slice then
      s.withRings { s.rings with runs := extendRuns s.rings.runs page.source page.slice }
    else
      let s0 := if s.rings.runs.length < Config.runCapacity then s else s.giveUpOldestRun
      s0.withRings { s0.rings with
        runs := closeRuns s0.rings.runs ++
          [{ source := page.source, first := page.slice, last := page.slice, isOpen := true }] }
  s1.withRings { s1.rings with
    mirror :=
      { pages := s1.rings.mirror.pages ++
          [{ slice := page.slice, source := page.source, absent := absentMask page.slots
             stepped := false, unsent := false, place := place }]
        high := some page.slice
        nextPlace := (place + 1) % s.mirrorCap } }

/-! ### Lookups (R116, R117) -/

/-- What the rings answer to a lookup (6.6), before any slot is read. -/
inductive Lookup where
  | held (record : PageRecord)
  | absent
  | notYet
  | beforeRetention
  | missing
  deriving DecidableEq, Repr

/-- A held page's answer for a lane. -/
def PageRecord.answer (p : PageRecord) (l : Lane) : Lookup :=
  if p.absent.getLsbD l.val then .absent else .held p

/-- A lookup in the own ring (R116). -/
def Rings.lookupOwn (r : Rings) (t : Slice) (l : Lane) : Lookup :=
  match r.own.pages.find? fun p => decide (p.slice = t) with
  | some p => p.answer l
  | none =>
    if (match r.own.high with
        | none => false
        | some h => before h t) then .notYet
    else
      match r.own.pages with
      | [] => .beforeRetention
      | p :: _ => if before t p.slice then .beforeRetention else .missing

/-- A lookup in the mirror ring, under the current mirror source (R117). -/
def Rings.lookupMirror (r : Rings) (current : Option StationId) (k : StationId) (t : Slice)
    (l : Lane) : Lookup :=
  if r.runs.any fun u => decide (u.source = k) && u.covers t then
    match r.mirror.pages.find? fun p => decide (p.slice = t ∧ p.source = k) with
    | some p => p.answer l
    | none => .missing
  else if current = some k then
    match openRunOf r.runs k with
    | none => .missing
    | some u => if before u.last t then .notYet else .missing
  else .missing

/-- The lookup of a claim: this station's audio in the own ring, any other's in the mirror ring. -/
def State.lookup (s : State) (source : StationId) (t : Slice) (l : Lane) : Lookup :=
  if source = s.control.id then s.rings.lookupOwn t l
  else s.rings.lookupMirror s.roster.mirror source t l

/-- The store page a record's place stands for: the own ring takes the store's first pages, the mirror
ring the rest (R102). -/
def State.storePage (s : State) (kind : PageKind) (place : Nat) : Nat :=
  match kind with
  | .capture => place
  | .mirror => s.ownCap + place

end Sys2Proof.Machine
end

