-- ==== Sys2Proof/Machine/SpanTable.lean ====
section
/-! DEFINITION. The span table replica, the outbox, custody and the repairs (R82 to R100), and the span
detectors (R73 to R81). -/

namespace Sys2Proof.Machine

/-- The span blocks' state replaced. -/
def State.withSpans (s : State) (x : Spans) : State := { s with spans := x }

/-- A lane's detector replaced. -/
def State.setDetector (s : State) (l : Lane) (d : Detector) : State :=
  s.withSpans { s.spans with detectors := put s.spans.detectors l d }

/-! ### Entries -/

/-- OPEN or ORPHANED. -/
def SpanEntry.live (e : SpanEntry) : Bool :=
  match e.status with
  | .opened => true
  | .orphaned _ _ => true
  | .closed _ _ => false

/-- An end slice no earlier than the open slice (R85). -/
def endNoEarlier (openSlice endSlice : Slice) : Slice :=
  if before endSlice openSlice then openSlice else endSlice

/-- The entry closed with an end slice and cause, announced by a station (R85). -/
def SpanEntry.close (e : SpanEntry) (endSlice : Slice) (cause : CloseCause) (by_ : StationId) :
    SpanEntry :=
  { e with status := .closed (endNoEarlier e.key.openSlice endSlice) cause, announcedBy := by_ }

/-- The entry of a key. -/
def entryOf (table : List SpanEntry) (k : SpanKey) : Option SpanEntry :=
  table.find? fun e => decide (e.key = k)

/-- The entry of a key changed; the keys of the table stay as they are. -/
def updateEntry (table : List SpanEntry) (k : SpanKey) (f : SpanEntry → SpanEntry) :
    List SpanEntry :=
  table.map fun e => if e.key = k then f e else e

/-- The room seat of a key. -/
def seatOf (k : SpanKey) : Nat := roomSeat k.owner k.lane

/-- The OPEN or ORPHANED entry of a room seat. -/
def liveOfSeat (table : List SpanEntry) (seat : Nat) : Option SpanEntry :=
  table.find? fun e => e.live && decide (seatOf e.key = seat)

/-! ### Items and the outbox (R87, R88) -/

/-- The item built from an entry: a CLOSE item of a CLOSED entry, otherwise an OPEN item. -/
def SpanEntry.item (e : SpanEntry) : SpanItem :=
  { key := e.key, role := e.role, condition := e.condition, concurrency := e.concurrency
    continued := e.continued, time := e.time
    form :=
      match e.status with
      | .closed t c => .closed t c
      | .opened => .opened e.link
      | .orphaned _ _ => .opened e.link }

/-- An item joins the outbox's tail; a full outbox discards its oldest item first, counts it and
raises OUTBOX_OVERFLOW (R88). -/
def State.announce (s : State) (i : SpanItem) : State :=
  match s.spans.outbox with
  | [] => s.withSpans { s.spans with outbox := [i] }
  | d :: rest =>
    if s.spans.outbox.length < Config.outboxCapacity then
      s.withSpans { s.spans with outbox := s.spans.outbox ++ [i] }
    else
      (s.withSpans { s.spans with
        outbox := rest ++ [i], outboxDrops := bump s.spans.outboxDrops }).raise .spans
        .outboxOverflow (seatOf d.key) (sliceDetail d.key.openSlice)

/-! ### Insertion and eviction (R86) -/

/-- The end slice of a CLOSED entry. -/
def SpanEntry.endSlice? (e : SpanEntry) : Option Slice :=
  match e.status with
  | .closed t _ => some t
  | .opened => none
  | .orphaned _ _ => none

/-- The CLOSED entry with the oldest end slice among those that satisfy `p`; ties go to the earliest
inserted. -/
def oldestClosed (p : SpanEntry → Slice → Bool) : List SpanEntry → Option SpanEntry
  | [] => none
  | e :: es =>
    match e.endSlice? with
    | none => oldestClosed p es
    | some t =>
      if p e t then
        match oldestClosed p es with
        | none => some e
        | some f =>
          match f.endSlice? with
          | none => some e
          | some u => if before u t then some f else some e
      else oldestClosed p es

/-- One entry is evicted: the oldest archived CLOSED entry, else the oldest CLOSED entry with
SPAN_EVICTED (R86). -/
def State.evict (s : State) : State :=
  match oldestClosed (fun e t => !s.rings.unarchivedSlice e.key.owner t) s.spans.table with
  | some e => s.withSpans { s.spans with table := s.spans.table.filter fun x => decide (x.key ≠ e.key) }
  | none =>
    match oldestClosed (fun _ _ => true) s.spans.table with
    | some e =>
      (s.withSpans { s.spans with
        table := s.spans.table.filter fun x => decide (x.key ≠ e.key) }).raise .spans .spanEvicted
        (seatOf e.key) (BitVec.ofNat 16 e.announcedBy.val)
    | none => s

/-- An entry is inserted, after an eviction when the table is full. A full table always holds a CLOSED
entry (R86); were there none, the insertion would be dropped (log 21). -/
def State.insertEntry (s : State) (e : SpanEntry) : State :=
  let s1 := if s.spans.table.length < Config.spanCapacity then s else s.evict
  if s1.spans.table.length < Config.spanCapacity then
    s1.withSpans { s1.spans with table := s1.spans.table ++ [e] }
  else s1

/-! ### Own opens and closes (R83 to R85) -/

/-- The key of an own span. -/
def State.ownKey (s : State) (l : Lane) (openSlice : Slice) : SpanKey :=
  { owner := s.control.id, lane := l, openSlice := openSlice }

/-- The link key of a new own span (R83). -/
def State.linkFor (s : State) (l : Lane) (condition : Condition) : Option LinkKey :=
  match (s.control.charter.seat (roomSeat s.control.id l)).link with
  | none => none
  | some seat =>
    match s.spans.table.find? fun e =>
        decide (e.status = .opened ∧ seatOf e.key = seat.val ∧ e.condition = condition) with
    | none => none
    | some e =>
      some { owner := byte e.key.owner.val, lane := byte e.key.lane.val
             openSlice := e.key.openSlice }

/-- The entry of a new own span (R83). -/
def State.newEntry (s : State) (l : Lane) (openSlice : Slice) (condition : Condition)
    (continued : Bool) : SpanEntry :=
  { key := s.ownKey l openSlice
    role := (s.control.charter.seat (roomSeat s.control.id l)).role
    status := .opened, condition := condition, link := s.linkFor l condition
    concurrency := s.spans.table.countP SpanEntry.live, continued := continued
    announcedBy := s.control.id, time := s.clock.timeOfDay openSlice }

/-- R84: the key of an own open is already in the table. -/
def State.openRefused (s : State) (l : Lane) (openSlice : Slice) : Bool :=
  (entryOf s.spans.table (s.ownKey l openSlice)).isSome

/-- An own open that R84 has let proceed: inserted and announced (R83). -/
def State.openSpan (s : State) (l : Lane) (openSlice : Slice) (condition : Condition)
    (continued : Bool) : State :=
  let e := s.newEntry l openSlice condition continued
  (s.insertEntry e).announce e.item

/-- A detector opens a span and becomes ACTIVE with the given last loud slice, or goes to QUIET when
R84 refuses the open (R75, R79, R94). -/
def State.tryOpen (s : State) (l : Lane) (openSlice : Slice) (condition : Condition)
    (continued : Bool) (lastLoud : Slice) : State :=
  if s.openRefused l openSlice then s.setDetector l .quiet
  else (s.openSpan l openSlice condition continued).setDetector l
    (.active lastLoud (s.ownKey l openSlice))

/-- An own span is closed and the close announced (R85). -/
def State.closeOwn (s : State) (k : SpanKey) (endSlice : Slice) (cause : CloseCause) : State :=
  match entryOf s.spans.table k with
  | none => s
  | some e =>
    let c := e.close endSlice cause s.control.id
    (s.withSpans { s.spans with table := updateEntry s.spans.table k fun _ => c }).announce c.item

/-! ### Detectors (R75 to R81) -/

/-- An onset of `count` loud blocks since `start`, with the newest of `b`'s slice: it opens when the
count reaches N_onset (R75). -/
def State.onsetAt (s : State) (l : Lane) (b : Block) (count : Nat) (start : Slice) : State :=
  if s.control.charter.nOnset ≤ count then s.tryOpen l start b.condition false b.slice
  else s.setDetector l (.onset count start)

/-- A hang of `count` quiet blocks: it closes the span when the count reaches N_hang (R76). -/
def State.hangAt (s : State) (l : Lane) (count : Nat) (lastLoud : Slice) (k : SpanKey) : State :=
  if s.control.charter.nHang ≤ count then (s.closeOwn k lastLoud .silence).setDetector l .quiet
  else s.setDetector l (.hang count lastLoud k)

/-- The evaluation of a block (R75, R76). -/
def State.evaluate (s : State) (l : Lane) (b : Block) : State :=
  match look s.spans.detectors l with
  | .disabled => s
  | .faulted => s
  | .quiet => if s.control.charter.tOpen ≤ b.level then s.onsetAt l b 1 b.slice else s
  | .onset count start =>
    if s.control.charter.tOpen ≤ b.level then s.onsetAt l b (count + 1) start
    else s.setDetector l .quiet
  | .active lastLoud k =>
    if s.control.charter.tClose ≤ b.level then s.setDetector l (.active b.slice k)
    else s.hangAt l 1 lastLoud k
  | .hang count lastLoud k =>
    if s.control.charter.tClose ≤ b.level then s.setDetector l (.active b.slice k)
    else s.hangAt l (count + 1) lastLoud k

/-- A span a detector holds open is closed, with end slice the last loud slice; nothing when it holds
none. -/
def State.closeHeld (s : State) (l : Lane) (cause : CloseCause) : State :=
  match look s.spans.detectors l with
  | .active lastLoud k => s.closeOwn k lastLoud cause
  | .hang _ lastLoud k => s.closeOwn k lastLoud cause
  | .disabled => s
  | .quiet => s
  | .onset _ _ => s
  | .faulted => s

/-- A change of the lane's fault state in place of the evaluation (R77). -/
def State.faultChange (s : State) (l : Lane) (c : FaultChange) : State :=
  match c with
  | .none => s
  | .enteredFault =>
    if look s.spans.detectors l = .disabled then s
    else (s.closeHeld l .laneFault).setDetector l .faulted
  | .restored => if look s.spans.detectors l = .faulted then s.setDetector l .quiet else s

/-- A change of the lane's detect setting, from the charter in force to one that takes effect at this
boundary (R81). -/
def State.detectChange (s : State) (l : Lane) (new : Charter) : State :=
  let seat := roomSeat s.control.id l
  let was := (s.control.charter.seat seat).detect
  let is := (new.seat seat).detect
  if was = true ∧ is = false then (s.closeHeld l .detectOff).setDetector l .disabled
  else if was = false ∧ is = true then
    s.setDetector l (if (look s.seat.faults l).faulted then .faulted else .quiet)
  else s

/-- What splits the spans at a boundary (R78): the cause, the ended slice, the slice that begins and
the condition in force for it. -/
structure Split where
  cause : CloseCause
  ended : Slice
  next : Slice
  condition : Condition
  deriving DecidableEq, Repr

/-- A split acts on one detector (R79, R80). -/
def State.splitLane (s : State) (l : Lane) (p : Split) : State :=
  match look s.spans.detectors l with
  | .active _ k =>
    let closed := s.closeOwn k p.ended p.cause
    if p.cause = .stopped then closed.setDetector l .quiet
    else closed.tryOpen l p.next p.condition true p.next
  | .hang _ lastLoud k => (s.closeOwn k lastLoud p.cause).setDetector l .quiet
  | .onset _ _ => s.setDetector l .quiet
  | .disabled => s
  | .quiet => s
  | .faulted => s

/-- One lane's work at a boundary, in the order of R74. -/
def State.detectorLane (s : State) (l : Lane) (b : Block) (change : FaultChange)
    (newCharter : Option Charter) (split : Option Split) : State :=
  let s1 := if change = .none then s.evaluate l b else s.faultChange l change
  let s2 :=
    match newCharter with
    | none => s1
    | some c => s1.detectChange l c
  match split with
  | none => s2
  | some p => s2.splitLane l p

/-- The detectors take their detect settings from a charter adopted in LISTEN (R73, R168). -/
def State.settingsFrom (s : State) (c : Charter) : State :=
  s.presentLanes.foldl
    (fun s l =>
      s.setDetector l (if (c.seat (roomSeat s.control.id l)).detect then .quiet else .disabled)) s

/-! ### Received items (R89 to R94) -/

/-- The entry a received item inserts (R90). -/
def entryOfItem (i : SpanItem) (sender : StationId) : SpanEntry :=
  { key := i.key, role := i.role
    status :=
      match i.form with
      | .opened _ => .opened
      | .closed t c => .closed (endNoEarlier i.key.openSlice t) c
    condition := i.condition
    link :=
      match i.form with
      | .opened l => l
      | .closed _ _ => none
    concurrency := i.concurrency, continued := i.continued, announcedBy := sender, time := i.time }

/-- An OPEN item of an unknown key (R91). -/
def State.insertOpen (s : State) (sender : StationId) (i : SpanItem) : State :=
  match liveOfSeat s.spans.table (seatOf i.key) with
  | none => s.insertEntry (entryOfItem i sender)
  | some old =>
    if before old.key.openSlice i.key.openSlice then
      (s.withSpans { s.spans with
        table := updateEntry s.spans.table old.key fun e =>
          e.close (i.key.openSlice - 1) .superseded s.control.id }).insertEntry
        (entryOfItem i sender)
    else s

/-- A received OPEN item (R89, R91). -/
def State.applyOpen (s : State) (sender : StationId) (i : SpanItem) : State :=
  if i.key.owner = sender then
    match entryOf s.spans.table i.key with
    | some _ => s
    | none => s.insertOpen sender i
  else s

/-- A beacon entry (R93): as an OPEN item, and an ORPHANED entry becomes OPEN again. -/
def State.applyBeaconEntry (s : State) (sender : StationId) (i : SpanItem) : State :=
  if i.key.owner = sender then
    match entryOf s.spans.table i.key with
    | none => s.insertOpen sender i
    | some e =>
      match e.status with
      | .orphaned _ _ =>
        s.withSpans { s.spans with
          table := updateEntry s.spans.table i.key fun x =>
            { x with status := .opened, announcedBy := sender } }
      | .opened => s
      | .closed _ _ => s
  else s

/-- A received SPAN_BEACON, entry by entry (R93). -/
def State.applyBeacon (s : State) (sender : StationId) (entries : List SpanItem) : State :=
  entries.foldl (fun s i => s.applyBeaconEntry sender i) s

/-- The detector's part of a custody close of an own OPEN span (R94): `e` is the entry before it. -/
def State.reopenAfterCustody (s : State) (e : SpanEntry) (endSlice : Slice) : State :=
  let next := endNoEarlier e.key.openSlice endSlice + 1
  match look s.spans.detectors e.key.lane with
  | .active lastLoud k =>
    if k = e.key then s.tryOpen e.key.lane next e.condition true (later lastLoud next) else s
  | .hang _ _ k => if k = e.key then s.setDetector e.key.lane .quiet else s
  | .disabled => s
  | .quiet => s
  | .onset _ _ => s
  | .faulted => s

/-- A received CLOSE item (R89, R92, R94). -/
def State.applyClose (s : State) (sender : StationId) (i : SpanItem) : State :=
  match i.form with
  | .opened _ => s
  | .closed endSlice cause =>
    match entryOf s.spans.table i.key with
    | none => s.insertEntry (entryOfItem i sender)
    | some e =>
      if e.live then
        let closed := s.withSpans { s.spans with
          table := updateEntry s.spans.table i.key fun x => x.close endSlice cause sender }
        if i.key.owner = s.control.id then closed.reopenAfterCustody e endSlice else closed
      else s

/-- A span item of either form. -/
def State.applyItem (s : State) (sender : StationId) (i : SpanItem) : State :=
  match i.form with
  | .opened _ => s.applyOpen sender i
  | .closed _ _ => s.applyClose sender i

/-! ### Lost peers (R95 to R100) -/

/-- R95: a loss report without custody. The owner's ID stays in 'announced by': R95 sets nothing else,
though the table of 5.3 has it name the station that decided the present state (DESIGN CHOICE,
log 36). -/
def orphan (k : StationId) (lastBlock : Option Slice) (e : SpanEntry) : SpanEntry :=
  if e.key.owner = k ∧ e.status = .opened then
    { e with status := .orphaned 0 (lastBlock.getD e.key.openSlice) }
  else e

/-- R95. -/
def State.lossReport (s : State) (k : StationId) (lastBlock : Option Slice) : State :=
  s.withSpans { s.spans with table := s.spans.table.map (orphan k lastBlock) }

/-- R96: an entry whose orphan count has reached the limit is closed at its orphan end. -/
def timeOut (limit : Nat) (self : StationId) (e : SpanEntry) : SpanEntry :=
  match e.status with
  | .orphaned n t => if limit ≤ n then e.close t .stationLost self else e
  | .opened => e
  | .closed _ _ => e

/-- R96: the orphan count of an ORPHANED entry rises. -/
def ageOrphan (e : SpanEntry) : SpanEntry :=
  match e.status with
  | .orphaned n t => { e with status := .orphaned (n + 1) t }
  | .opened => e
  | .closed _ _ => e

/-- R96: the counts of the ORPHANED entries rise by one. -/
def State.ageOrphans (s : State) : State :=
  s.withSpans { s.spans with table := s.spans.table.map ageOrphan }

/-- R96: the entries whose count has reached orphan_slices are closed locally. -/
def State.timeOutOrphans (s : State) : State :=
  s.withSpans { s.spans with
    table := s.spans.table.map (timeOut s.control.charter.orphanSlices s.control.id) }

/-- One entry's custody close (R97). -/
def State.custodyClose (s : State) (e : SpanEntry) (endSlice : Slice) : State :=
  let c := e.close endSlice .stationLost s.control.id
  (s.withSpans { s.spans with table := updateEntry s.spans.table e.key fun _ => c }).announce c.item

/-- The OPEN and ORPHANED entries of a peer in ascending lane order. -/
def liveOfPeer (table : List SpanEntry) (k : StationId) : List SpanEntry :=
  allLanes.flatMap fun l => table.filter fun e => e.live && decide (e.key.owner = k ∧ e.key.lane = l)

/-- A custody record joins (R98): it replaces one of the same ID, and a fifth displaces the oldest. -/
def addCustody (records : List CustodyRecord) (r : CustodyRecord) : List CustodyRecord :=
  let others := records.filter fun x => decide (x.peer ≠ r.peer)
  (if others.length < Config.custodyCapacity then others else others.drop 1) ++ [r]

/-- A custody report (R97, R98). -/
def State.custodyReport (s : State) (k : StationId) (join lastBlock : Option Slice) : State :=
  let endOf (e : SpanEntry) : Slice :=
    match openRunOf s.rings.runs k with
    | some r => r.last
    | none => lastBlock.getD e.key.openSlice
  let live := liveOfPeer s.spans.table k
  let closed := live.foldl (fun s e => s.custodyClose e (endOf e)) s
  let items := live.map fun e => (e.close (endOf e) .stationLost s.control.id).item
  (closed.withSpans { closed.spans with
    custody := addCustody closed.spans.custody { peer := k, join := join, items := items } }).raise
    .spans .custodyTaken k.val (BitVec.ofNat 16 live.length)

/-- The report that a peer has been heard again with the same incarnation (R99). -/
def State.returnReport (s : State) (k : StationId) (join : Option Slice) : State :=
  match s.spans.custody.find? fun r => decide (r.peer = k ∧ r.join = join) with
  | none => s
  | some r =>
    let sent := r.items.foldl State.announce s
    sent.withSpans { sent.spans with
      custody := sent.spans.custody.filter fun x => decide (x.peer ≠ k) }

/-- R100: the old incarnation's OPEN and ORPHANED entries are closed. -/
def closeOld (k : StationId) (lastBlock : Option Slice) (self : StationId) (e : SpanEntry) :
    SpanEntry :=
  if e.live = true ∧ e.key.owner = k then
    e.close (lastBlock.getD e.key.openSlice) .stationLost self
  else e

/-- The report that a peer has begun a new incarnation (R100). -/
def State.incarnationReport (s : State) (k : StationId) (lastBlock : Option Slice) : State :=
  s.withSpans { s.spans with
    table := s.spans.table.map (closeOld k lastBlock s.control.id)
    custody := s.spans.custody.filter fun x => decide (x.peer ≠ k) }

end Sys2Proof.Machine
end

