-- ==== Sys2Proof/Machine/RecallService.lean ====
section
/-! DEFINITION. The recall service (chapter 8): the queue, reading the answer, the window's outcome,
purge and fault rewind. -/

namespace Sys2Proof.Machine

/-- The recall service's state replaced. -/
def State.withServer (s : State) (r : Recall) : State := { s with server := r }

/-! ### Places -/

/-- The lowest lane of a seat mask. -/
def lowestLane (mask : BitVec 8) : Lane := (allLanes.find? fun l => mask.getLsbD l.val).getD 0

/-- The next lane of a seat mask after a lane. -/
def nextLane (mask : BitVec 8) (l : Lane) : Option Lane :=
  allLanes.find? fun k => decide (l < k) && mask.getLsbD k.val

/-- The start of a request (R143). -/
def RecallId.start (r : RecallId) : ReadPos :=
  { request := r, place := .slot r.first (lowestLane r.mask) }

/-- The place after every lane of a slice (R145). -/
def RecallId.afterSlice (r : RecallId) (t : Slice) : Place :=
  if t = r.last then .done else .slot (t + 1) (lowestLane r.mask)

/-- The place after one lane of a slice (R145). -/
def RecallId.afterLane (r : RecallId) (t : Slice) (l : Lane) : Place :=
  match nextLane r.mask l with
  | some k => .slot t k
  | none => r.afterSlice t

/-- The lanes a gap of whole missing pages covers in its slice from a lane on (R146). -/
def lanesFrom (mask : BitVec 8) (l : Lane) : BitVec 8 := (mask >>> l.val) <<< l.val

/-! ### The buffer -/

/-- The room left (R144). -/
def Recall.roomLeft (r : Recall) : Nat :=
  Config.recallRoom - (r.buffer.map fun i => i.item.size).sum

/-- The item is a block item of a request. -/
def BufferItem.isBlockOf (i : BufferItem) (r : RecallId) : Bool :=
  decide (i.request = r) &&
    match i.item with
    | .block _ _ _ => true
    | .gap _ _ _ _ => false
    | .done _ _ => false

/-- The item is a gap item of a request. -/
def BufferItem.isGapOf (i : BufferItem) (r : RecallId) : Bool :=
  decide (i.request = r) &&
    match i.item with
    | .block _ _ _ => false
    | .gap _ _ _ _ => true
    | .done _ _ => false

/-- The item is the DONE item of a request. -/
def BufferItem.isDoneOf (i : BufferItem) (r : RecallId) : Bool :=
  decide (i.request = r) &&
    match i.item with
    | .block _ _ _ => false
    | .gap _ _ _ _ => false
    | .done _ _ => true

/-- An item is produced at the read position, which moves to a place of the same request (R145). -/
def Recall.produce (r : Recall) (at_ : ReadPos) (item : RecallItem) (next : Place) : Recall :=
  { r with
    buffer := r.buffer ++
      [{ request := at_.request, place := at_.place, item := item, handed := false }]
    pos := some { request := at_.request, place := next } }

/-- The request behind a request in the queue. -/
def behind (queue : List RecallRequest) (r : RecallId) : Option RecallId :=
  match queue with
  | [] => none
  | q :: rest =>
    if q.id = r then
      match rest with
      | [] => none
      | n :: _ => some n.id
    else behind rest r

/-- The queued request's record. -/
def requestRecord (queue : List RecallRequest) (r : RecallId) : Option RecallRequest :=
  queue.find? fun q => decide (q.id = r)

/-- The DONE item of a request as it would be produced now (R147). -/
def Recall.doneItem (r : Recall) (id : RecallId) : RecallItem :=
  match requestRecord r.queue id with
  | none => .done (r.buffer.countP fun i => i.isBlockOf id) (r.buffer.countP fun i => i.isGapOf id)
  | some q =>
    .done (q.blocksSent + r.buffer.countP fun i => i.isBlockOf id)
      (q.gapsSent + r.buffer.countP fun i => i.isGapOf id)

/-- The read position after the DONE item of a request: the start of the request behind it, or it
rests (R147). -/
def Recall.afterDone (r : Recall) (id : RecallId) : ReadPos :=
  match behind r.queue id with
  | none => { request := id, place := .done }
  | some n => n.start

/-- A read taken by the store whose outcome will be used. -/
def Recall.readLive (r : Recall) : Bool :=
  match r.inFlight with
  | none => false
  | some f => !f.discard

/-- DONE items are produced while they are next (R147), and then the claim for the next lookup is
presented when the room allows (R144). The first argument bounds the number of DONE items; one more
than the queue's length is enough. -/
def Recall.pumpFrom : Nat → Recall → Recall
  | 0, r => r
  | n + 1, r =>
    match r.pos with
    | none => r
    | some p =>
      match p.place with
      | .slot t l =>
        if 336 ≤ r.roomLeft then
          { r with claim := some { source := p.request.source, slice := t, lane := l } }
        else r
      | .done =>
        if r.buffer.any fun i => i.isDoneOf p.request then r
        else if 8 ≤ r.roomLeft then
          let made := r.produce p (r.doneItem p.request) .done
          pumpFrom n { made with pos := some (r.afterDone p.request) }
        else r

/-- Production goes on, in a reading period in which no claim stands presented and no read that will
be used is in flight (R144). -/
def Recall.pump (r : Recall) : Recall :=
  if r.reading = true ∧ r.claim = none ∧ r.readLive = false then
    Recall.pumpFrom (r.queue.length + 1) r
  else r

/-- Production goes on. -/
def State.pump (s : State) : State := s.withServer s.server.pump

/-! ### Outcomes (R145, R146) -/

/-- The latest slice, up to `n` slices after `t`, such that every slice after `t` up to it satisfies
`same`. -/
def runEnd (same : Slice → Bool) : Nat → Slice → Slice
  | 0, t => t
  | n + 1, t => if same (t + 1) then runEnd same n (t + 1) else t

/-- The gap outcome of a lookup that found no readable slot. -/
def gapOutcome : Lookup → GapOutcome
  | .held _ => .missing
  | .absent => .absent
  | .notYet => .notYet
  | .beforeRetention => .beforeRetention
  | .missing => .missing

/-- The item and the next place of a request, for a lookup at slice `t` and lane `l` that found no page
(R146). `same` tells the slices whose lookup would give the same outcome. -/
def RecallId.gapRun (r : RecallId) (t : Slice) (l : Lane) (same : Slice → Bool)
    (outcome : GapOutcome) : RecallItem × Place :=
  if l = lowestLane r.mask then
    let e := runEnd same (r.last - t).toNat t
    (.gap r.mask t e outcome, r.afterSlice e)
  else (.gap (lanesFrom r.mask l) t t outcome, r.afterSlice t)

/-- The item of a lookup that needs no slot read (R145, R146), at the read position. -/
def State.produceLookup (s : State) (found : Lookup) : State :=
  match s.server.pos with
  | none => s
  | some p =>
    match p.place with
    | .done => s
    | .slot t l =>
      let made :=
        match found with
        | .held _ => (RecallItem.gap (flagBit 8 true l.val) t t .missing, p.request.afterLane t l)
        | .absent => (RecallItem.gap (flagBit 8 true l.val) t t .absent, p.request.afterLane t l)
        | .notYet | .beforeRetention | .missing =>
          p.request.gapRun t l (fun u => decide (s.lookup p.request.source u l = found))
            (gapOutcome found)
      s.withServer (s.server.produce p made.1 made.2)

/-- The outcome of the read in flight joins the buffer, or is discarded (R145, R151, R153): `slot` is
the block item of a slot that verified, or `none` for CORRUPT. -/
def Recall.readEnded (r : Recall) (slot : Option RecallItem) : Recall :=
  match r.inFlight with
  | none => r
  | some f =>
    let ended := { r with inFlight := none }
    if f.discard then ended
    else
      match f.pos.place with
      | .done => ended
      | .slot t l =>
        ended.produce f.pos (slot.getD (.gap (flagBit 8 true l.val) t t .corrupt))
          (f.pos.request.afterLane t l)

/-! ### The queue (R140 to R143) -/

/-- Equal in requester, source station, seat mask, first slice and last slice (R142). -/
def RecallId.repeats (a b : RecallId) : Bool :=
  decide (a.requester = b.requester ∧ a.source = b.source ∧ a.mask = b.mask ∧ a.first = b.first
    ∧ a.last = b.last)

/-- The read position rests at a DONE item already produced (R147). -/
def Recall.restsAtDone (r : Recall) : Bool :=
  match r.pos with
  | none => false
  | some p => decide (p.place = .done) && r.buffer.any fun i => i.isDoneOf p.request

/-- An accepted request joins the tail (R143, R147). -/
def Recall.accept (r : Recall) (id : RecallId) : Recall :=
  let joined :=
    { r with queue := r.queue ++ [{ id := id, blocksSent := 0, gapsSent := 0 }] }
  match r.queue with
  | [] => { joined with cursor := some id.start, pos := some id.start }
  | _ :: _ => if r.restsAtDone then { joined with pos := some id.start } else joined

/-- A refused request (R157). -/
def State.refuseRecall (s : State) (requester : StationId) (tag : Half) : State :=
  s.raise .recallService .recallRefused requester.val tag

/-- A RECALL addressed to this station is judged (R141). The last slice must lie 0 to 5,999 slices
after the first. -/
def State.judgeRecall (s : State) (requester : StationId) (tag : Half) (source mask : Byte)
    (first last : Slice) : State :=
  match stationOf source.toNat with
  | none => s.refuseRecall requester tag
  | some src =>
    let id : RecallId :=
      { requester := requester, tag := tag, source := src, mask := mask, first := first
        last := last }
    if 6000 ≤ (last - first).toNat then s.refuseRecall requester tag
    else if mask = 0 then s.refuseRecall requester tag
    else if src ≠ s.control.id ∧ s.control.charter.mirrorShare = 0 then
      s.refuseRecall requester tag
    else if s.server.queue.any fun q => q.id.repeats id then s
    else if Config.recallCapacity ≤ s.server.queue.length then s.refuseRecall requester tag
    else (s.withServer (s.server.accept id)).pump

/-- A RECALL request (R140): ignored when another station is named as holder. -/
def State.takeRecall (s : State) (requester : StationId) (tag : Half) (holder source mask : Byte)
    (first last : Slice) : State :=
  if holder.toNat = s.control.id.val then s.judgeRecall requester tag source mask first last
  else s

/-! ### The window and its outcome (R149 to R152) -/

/-- The reading period ends at the window's start (R149). -/
def Recall.endReading (r : Recall) : Recall := { r with reading := false, claim := none }

/-- Every item of the buffer is handed to the link (R149). -/
def Recall.hand (r : Recall) : Recall :=
  { r with buffer := r.buffer.map fun i => { i with handed := true } }

/-- A request's counts with the handed items added (R150). -/
def RecallRequest.credit (q : RecallRequest) (sent : List BufferItem) : RecallRequest :=
  { q with
    blocksSent := q.blocksSent + sent.countP fun i => i.isBlockOf q.id
    gapsSent := q.gapsSent + sent.countP fun i => i.isGapOf q.id }

/-- The head request (R143). -/
def headOf (queue : List RecallRequest) : Option RecallId :=
  match queue with
  | [] => none
  | q :: _ => some q.id

/-- The cursor after a frame sent complete: the first item left (R150), also where a request becomes the
head and R143 would put the cursor at its first slice and lowest lane (DESIGN CHOICE, log 41); with the
buffer empty, the start of the new head request when the queue has a new head, else the read position
(R150, R143; log 9). `old` is the head before the frame's answered requests left. -/
def cursorAfter (old : Option RecallId) (queue : List RecallRequest) (left : List BufferItem)
    (pos : Option ReadPos) : Option ReadPos :=
  match queue with
  | [] => none
  | head :: _ =>
    match left with
    | i :: _ => some { request := i.request, place := i.place }
    | [] => if old = some head.id then pos else some head.id.start

/-- The recall frame has been sent complete (R150). -/
def Recall.sent (r : Recall) : Recall :=
  let carried := r.buffer.filter fun i => i.handed
  let left := r.buffer.filter fun i => !i.handed
  let queue := (r.queue.filter fun q => !(carried.any fun i => i.isDoneOf q.id)).map fun q =>
    q.credit carried
  let cursor := cursorAfter (headOf r.queue) queue left r.pos
  { r with
    queue := queue, buffer := left, cursor := cursor
    pos :=
      match queue with
      | [] => none
      | _ :: _ =>
        match r.pos with
        | none => cursor
        | some p => if queue.any fun q => decide (q.id = p.request) then some p else cursor }

/-- The read in flight is marked so that its outcome is discarded. -/
def Recall.dropRead (r : Recall) : Recall :=
  { r with inFlight := r.inFlight.map fun f => { f with discard := true } }

/-- The recall frame has been aborted (R151). -/
def Recall.aborted (r : Recall) : Recall :=
  { r.dropRead with buffer := [], pos := r.cursor }

/-! ### What overtakes a request (R153, R154) -/

/-- The queue up to and with the read position's request. -/
def reached (queue : List RecallRequest) (pos : Option ReadPos) : List RecallRequest :=
  match pos with
  | none => []
  | some p =>
    match queue with
    | [] => []
    | q :: rest => if q.id = p.request then [q] else q :: reached rest pos

/-- The purge of a requester's requests (R153). -/
def Recall.purge (r : Recall) (k : StationId) : Recall :=
  let left := r.queue.filter fun q => decide (q.id.requester ≠ k)
  if (reached r.queue r.pos).any fun q => decide (q.id.requester = k) then
    let cursor :=
      match left with
      | [] => none
      | head :: _ =>
        match r.cursor with
        | none => some head.id.start
        | some c => if c.request.requester = k then some head.id.start else some c
    { r.dropRead with queue := left, buffer := [], claim := none, cursor := cursor, pos := cursor }
  else { r with queue := left }

/-- The purge, after which production goes on in a reading period. -/
def State.purgeRecall (s : State) (k : StationId) : State := (s.withServer (s.server.purge k)).pump

/-- The read position of R154: the first item not handed when a recall frame is in flight, else the
cursor. -/
def Recall.faultPosition (r : Recall) (frameInFlight : Bool) : Option ReadPos :=
  if frameInFlight then
    match r.buffer.find? fun i => !i.handed with
    | none => r.pos
    | some i => some { request := i.request, place := i.place }
  else r.cursor

/-- A store fault (R154). A read in flight, which R137 excludes at that instant, is marked so that it gives no
item (log 30). -/
def Recall.fault (r : Recall) (frameInFlight : Bool) : Recall :=
  { r.dropRead with
    buffer := r.buffer.filter fun i => i.handed, claim := none
    pos := r.faultPosition frameInFlight }.pump

/-- The holder of the new slice is presented at a boundary (R144): the reading period of a held slice
begins. -/
def Recall.hold (r : Recall) (held : Bool) : Recall :=
  { r with holds := held, reading := held, claim := if held then r.claim else none }.pump

end Sys2Proof.Machine
end

