-- ==== Sys2Proof/Machine/StoreControl.lean ====
section
/-! DEFINITION. The store controller (chapter 7): staging, arbitration and grants, refresh, start-up,
slot writes and reads, the store fault. -/

namespace Sys2Proof.Machine

/-- The store controller's state replaced. -/
def State.withStore (s : State) (x : Store) : State := { s with store := x }

/-! ### Staging (R134 to R136) -/

/-- A full staging area with its oldest page whose write has not begun taken out: that page, and the
pages left (R136). -/
def dropStaged {α : Type} (writing : Bool) : List α → Option (α × List α)
  | [] => none
  | [a] => if writing then none else some (a, [])
  | a :: b :: rest => if writing then some (b, a :: rest) else some (a, b :: rest)

/-- An own page joins capture staging (R134, R136). -/
def State.stageCapture (s : State) (p : OwnPage) : State :=
  if s.store.capture.length < Config.stagingCapacity then
    s.withStore { s.store with capture := s.store.capture ++ [p] }
  else
    match dropStaged s.store.captureWrite.isSome s.store.capture with
    | none => s.withStore { s.store with capture := s.store.capture ++ [p] }
    | some (d, left) =>
      (s.withStore { s.store with capture := left ++ [p], drops := bump s.store.drops }).raise .store
        .stagingOverflow 0 (sliceDetail d.slice)

/-- A mirror page joins mirror staging (R135, R136). -/
def State.stageMirror (s : State) (p : MirrorPage) : State :=
  if s.store.mirror.length < Config.stagingCapacity then
    s.withStore { s.store with mirror := s.store.mirror ++ [p] }
  else
    match dropStaged s.store.mirrorWrite.isSome s.store.mirror with
    | none => s.withStore { s.store with mirror := s.store.mirror ++ [p] }
    | some (d, left) =>
      (s.withStore { s.store with mirror := left ++ [p], drops := bump s.store.drops }).raise .store
        .stagingOverflow 1 (sliceDetail d.slice)

/-- The page awaiting outcome, if any, takes an outcome. -/
def State.outcome (s : State) (o : PageOutcome) : State :=
  s.withStore { s.store with
    capture := s.store.capture.map fun p => if p.outcome = .awaiting then { p with outcome := o } else p }

/-- The awaiting page, if any, is settled SENT (R30). -/
def State.settleSent (s : State) : State := s.outcome .sent

/-- The awaiting page, if any, is settled UNSENT, and the unsent-slice counter rises (R31). -/
def State.settleUnsent (s : State) : State :=
  match s.awaitingPage with
  | none => s
  | some _ =>
    let t := s.outcome .unsent
    { t with seat := { t.seat with unsentSlices := bump t.seat.unsentSlices } }

/-! ### Grants (R123, R128, R131 to R133, R135) -/

/-- A refresh operation starts; in READY the debt falls by one (R129). -/
def Store.startRefresh (x : Store) : Store :=
  { x with op := some .refresh, debt := if x.phase = .ready then x.debt - 1 else x.debt }

/-- The capture page that claims a write (R131): the oldest, when its outcome is settled or its write
has begun. -/
def Store.captureClaim (x : Store) : Option OwnPage :=
  match x.capture with
  | [] => none
  | p :: _ => if x.captureWrite.isSome ∨ p.outcome ≠ .awaiting then some p else none

/-- The bytes of one slot write of a capture page (R124). -/
def State.captureSlot (s : State) (p : OwnPage) (l : Lane) : List Byte :=
  slotBytes p.slice s.control.id l (p.slots.getD l.val none) p.flagsByte

/-- The bytes of one slot write of a mirror page (R124). -/
def mirrorSlot (p : MirrorPage) (l : Lane) : List Byte :=
  slotBytes p.slice p.source l (p.slots.getD l.val none) 0

/-- The next slot write of a capture page starts; before its first, the own ring acts (R103, R105). -/
def State.grantCapture (s : State) (p : OwnPage) : State :=
  let s1 :=
    match s.store.captureWrite with
    | some _ => s
    | none =>
      let begun := s.beginOwn p
      begun.withStore { begun.store with
        captureWrite := some { place := begun.rings.own.nextPlace, lane := 0 } }
  match s1.store.captureWrite with
  | none => s1
  | some w =>
    s1.withStore { s1.store with
      op := some (.writeSlot .capture (s1.storePage .capture w.place) w.lane
        (s1.captureSlot p w.lane) true) }

/-- The next slot write of a mirror page starts; before its first, the mirror ring acts (R103,
R109). -/
def State.grantMirror (s : State) (p : MirrorPage) : State :=
  let s1 :=
    match s.store.mirrorWrite with
    | some _ => s
    | none =>
      let begun := s.beginMirror p
      begun.withStore { begun.store with
        mirrorWrite := some { place := begun.rings.mirror.nextPlace, lane := 0 } }
  match s1.store.mirrorWrite with
  | none => s1
  | some w =>
    s1.withStore { s1.store with
      op := some (.writeSlot .mirror (s1.storePage .mirror w.place) w.lane (mirrorSlot p w.lane)
        true) }

/-- The kind of ring that holds a source's audio (R141). -/
def State.ringOf (s : State) (source : StationId) : PageKind :=
  if source = s.control.id then .capture else .mirror

/-- A taken read claim whose lookup found a slot: the slot read starts (R133). -/
def State.grantRead (s : State) (c : Claim) (p : PageRecord) (pos : ReadPos) : State :=
  let taken :=
    s.withServer { s.server with claim := none, inFlight := some { pos := pos, discard := false } }
  taken.withStore { taken.store with
    op := some (.readSlot c (s.storePage (s.ringOf c.source) p.place)) }

/-- A taken read claim whose lookup found none: its item is produced, and the next is taken up
(R133, R144). -/
def State.answerClaim (s : State) (found : Lookup) : State :=
  ((s.withServer { s.server with claim := none }).produceLookup found).pump

/-- A mirror page leaves staging without a write (R135). -/
def State.discardMirror (s : State) : State :=
  s.withStore { s.store with mirror := s.store.mirror.drop 1 }

/-- The operation boundary of an idle store (R123): one operation starts for the first claimant (R131).
Claims that use no store time are taken on the way. The first argument bounds them: a read buffer
takes at most 1,225 items of 16 bytes while 336 bytes are left, and staging holds two pages. -/
def State.grantFrom : Nat → State → State
  | 0, s => s
  | n + 1, s =>
    if s.store.op ≠ none ∨ s.stWait = true then s
    else
      match s.store.phase with
      | .pause => s
      | .initRefresh => s.withStore s.store.startRefresh
      | .ready =>
        if 6 ≤ s.store.debt then s.withStore s.store.startRefresh
        else
          match s.store.captureClaim with
          | some p => s.grantCapture p
          | none =>
            match s.store.mirror with
            | p :: _ =>
              if s.store.mirrorWrite = none ∧ s.mirrorCap = 0 then grantFrom n s.discardMirror
              else s.grantMirror p
            | [] =>
              match s.server.claim, s.server.pos with
              | some c, some pos =>
                match s.lookup c.source c.slice c.lane with
                | .held p => s.grantRead c p pos
                | .absent => grantFrom n (s.answerClaim .absent)
                | .notYet => grantFrom n (s.answerClaim .notYet)
                | .beforeRetention => grantFrom n (s.answerClaim .beforeRetention)
                | .missing => grantFrom n (s.answerClaim .missing)
              | _, _ => if 1 ≤ s.store.debt then s.withStore s.store.startRefresh else s

/-- The store's reaction at the end of a command at which a claim may have appeared (log 17). -/
def State.grant (s : State) : State := s.grantFrom 1300

/-! ### Refresh and start-up (R128 to R130) -/

/-- A tick of R129 that is no store fault. -/
def Store.tick (x : Store) : Store :=
  { x with
    ticks := x.ticks + 1, debt := x.debt + 1
    peak := if x.peak < x.debt + 1 then x.debt + 1 else x.peak }

/-- No page write is in progress any more; a slot write then in progress adds no record (R132). -/
def Store.restartWrites (x : Store) : Store :=
  { x with
    captureWrite := none, mirrorWrite := none
    op := match x.op with
      | some (.writeSlot kind page lane bytes _) => some (.writeSlot kind page lane bytes false)
      | some .refresh => some .refresh
      | some (.readSlot c page) => some (.readSlot c page)
      | none => none }

/-- The subject of STORE_FAULT (R138). -/
def Store.faultSubject (x : Store) : Nat :=
  (if x.captureWrite.isSome then 1 else 0) + (if x.mirrorWrite.isSome then 2 else 0)

/-- STORE_INIT in PAUSE after a fault (R137, fourth). -/
def Store.reenterInit (x : Store) : Store :=
  { x with phase := .pause, pauseTime := 0, initDone := 0, debt := 0, ticks := 0 }

/-- A recall frame is in flight. -/
def State.recallInFlight (s : State) : Bool := decide (s.link.tx = .sendingRecall)

/-- The store fault (R137). -/
def State.storeFault (s : State) : State :=
  let s1 := s.withStore { s.store.restartWrites with reinits := satSucc 65535 s.store.reinits }
  let s2 := s1.raise .store .storeFault s.store.faultSubject
    (BitVec.ofNat 16 (s.store.capture.length + s.store.mirror.length))
  let s3 := (s2.restartOwn causeStoreFault).restartMirror causeStoreFault
  let s4 := s3.withServer (s3.server.fault s3.recallInFlight)
  s4.withStore s4.store.reenterInit

/-- A refresh tick (R129, R130). -/
def State.refreshTick (s : State) : State :=
  if s.store.phase = .ready then
    if 8 ≤ s.store.debt then s.storeFault else s.withStore s.store.tick
  else s

/-- The store enters READY (R128, R138, R160). -/
def State.enterReady (s : State) : State :=
  let ready :=
    s.withStore { s.store with phase := .ready, initDone := 8, ticks := 0, debt := 0 }
  { ready.raise .store .storeReady (if s.control.storeSeen then 1 else 0)
      (BitVec.ofNat 16 s.store.reinits) with
    control := { s.control with storeSeen := true } }

/-- A refresh operation ends (R123, R128). -/
def State.refreshEnd (s : State) : State :=
  if s.store.op = some .refresh then
    let ended := s.withStore { s.store with op := none, row := s.store.row + 1 }
    if s.store.phase = .initRefresh then
      if 8 ≤ s.store.initDone + 1 then ended.enterReady
      else ended.withStore { ended.store with initDone := s.store.initDone + 1 }
    else ended
  else s

/-- PAUSE ends (R128). -/
def State.pauseEnd (s : State) : State :=
  if s.store.phase = .pause then
    s.withStore { s.store with phase := .initRefresh, pauseTime := Config.pauseCounts }
  else s

/-! ### Slot writes and reads (R124, R125) -/

/-- The page write of a kind goes on to its next lane, or completes after lane 7 (R124, R134, R135). -/
def State.advanceCapture (s : State) : State :=
  match s.store.captureWrite, s.store.capture with
  | some w, p :: rest =>
    if w.lane = 7 then
      (s.withStore { s.store with captureWrite := none, capture := rest }).completeOwn p w.place
    else s.withStore { s.store with captureWrite := some { w with lane := w.lane + 1 } }
  | _, _ => s

/-- As `advanceCapture`, for the mirror page write. -/
def State.advanceMirror (s : State) : State :=
  match s.store.mirrorWrite, s.store.mirror with
  | some w, p :: rest =>
    if w.lane = 7 then
      (s.withStore { s.store with mirrorWrite := none, mirror := rest }).completeMirror p w.place
    else s.withStore { s.store with mirrorWrite := some { w with lane := w.lane + 1 } }
  | _, _ => s

/-- The page write a slot write belongs to advances, unless it has returned to not begun (R132). -/
def State.advanceWrite (s : State) (kind : PageKind) (live : Bool) : State :=
  if live then
    match kind with
    | .capture => s.advanceCapture
    | .mirror => s.advanceMirror
  else s

/-- A slot write ends: its bytes stand in the DRAM (log 22), and its page write advances. -/
def State.slotWritten (s : State) (kind : PageKind) (page : Nat) (lane : Lane) (bytes : List Byte)
    (live : Bool) : State :=
  let done := { s with dram := Memory.writeBytes s.dram (slotAddress page lane) bytes }
  (done.withStore { done.store with op := none }).advanceWrite kind live

/-- The fetched slot with the bytes the DRAM returned otherwise. -/
def damaged (bytes : List Byte) (damage : List (Fin 512 × Byte)) : List Byte :=
  damage.foldl (fun bs d => bs.set d.1.val d.2) bytes

/-- The verified outcome of a slot read: the block item as read, or `none` for CORRUPT (R125, R145). Only an
item from the own ring carries its page's UNSENT marking (R148, 11.7). -/
def State.fetchSlot (s : State) (c : Claim) (page : Nat) (damage : List (Fin 512 × Byte)) :
    Option RecallItem :=
  let bytes := damaged (Memory.readBytes s.dram (slotAddress page c.lane) 512) damage
  if slotGood bytes c then
    some (.block (slotBlock bytes c) (slotCode bytes)
      (decide (c.source = s.control.id) && slotUnsent bytes))
  else none

/-- A slot read ends (R125, R133, R145). -/
def State.slotFetched (s : State) (c : Claim) (page : Nat) (damage : List (Fin 512 × Byte)) :
    State :=
  let ended := s.withStore { s.store with op := none }
  (ended.withServer (s.server.readEnded (s.fetchSlot c page damage))).pump

/-! ### A new partition (R114, R132) -/

/-- The rings restart for a charter with another mirror share, and page writes begin again. -/
def State.resplit (s : State) : State :=
  let t := (s.restartOwn causeResplit).restartMirror causeResplit
  t.withStore t.store.restartWrites

end Sys2Proof.Machine
end

