-- ==== Sys2Proof/Machine/RosterOps.lean ====
section
/-! DEFINITION. The roster (chapter 4): headers applied to entries, silence and loss, the selection of
the reference and the mirror source, digest agreement. -/

namespace Sys2Proof.Machine

/-- The roster replaced. -/
def State.withRoster (s : State) (r : Roster) : State := { s with roster := r }

/-- The station controller's state replaced. -/
def State.withControl (s : State) (c : Control) : State := { s with control := c }

/-- One entry replaced. -/
def State.setEntry (s : State) (k : StationId) (e : RosterEntry) : State :=
  s.withRoster { s.roster with entries := put s.roster.entries k e }

/-! ### The selections (R66, R67) -/

/-- A candidate for reference and mirror source: a PRESENT capture peer in RUN or IDLE. -/
def RosterEntry.candidate (e : RosterEntry) : Bool :=
  decide (e.state = .present ∧ e.kind = some .capture ∧ e.activity.isSome = true)

/-- The timing reference by R66. The own entry is a candidate exactly in RUN and IDLE (R59). -/
def State.chooseReference (s : State) : Option StationId :=
  allIds.find? fun k => (s.entry k).candidate

/-- The mirror source by R67. -/
def State.chooseMirror (s : State) : Option StationId :=
  let id := s.control.id
  if s.control.charter.mirrorShare = 0 ∨ s.active = false then none
  else
    match allIds.reverse.find? fun k => decide (k < id) && (s.entry k).candidate with
    | some k => some k
    | none => allIds.reverse.find? fun k => decide (id < k) && (s.entry k).candidate

/-- A reference that is this station disarms the join correction (R163). -/
def State.disarmIfOwn (s : State) : State :=
  if s.roster.reference = some s.control.id then
    s.withControl { s.control with correction := false }
  else s

/-- A changed reference (R68): the notice, and the clock's reaction in RUN and IDLE (R6). -/
def State.presentReference (s : State) (new : Option StationId) : State :=
  let old := s.roster.reference
  if new = old then s
  else
    let told := (s.withRoster { s.roster with reference := new }).raise .roster .referenceChanged
      (idOr255 new) (BitVec.ofNat 16 (idOr255 old))
    if s.active then told.followReference old new else told

/-- A changed mirror source (R68): the notice, and the OPEN run closed (R112). -/
def State.presentMirror (s : State) (new : Option StationId) : State :=
  let old := s.roster.mirror
  if new = old then s
  else
    ((s.withRoster { s.roster with mirror := new }).raise .roster .mirrorSourceChanged (idOr255 new)
      (BitVec.ofNat 16 (idOr255 old))).closeRun

/-- The recomputation of both selections (R68). -/
def State.recompute (s : State) : State :=
  let reference := s.chooseReference
  let mirror := s.chooseMirror
  ((s.presentReference reference).presentMirror mirror).disarmIfOwn

/-! ### Digest agreement (R70) -/

/-- The agreement of a digest with this station's. -/
def State.agreementOf (s : State) (digest : Option Word) : Option Bool :=
  digest.map fun d => decide (d = s.control.digest)

/-- Every PRESENT entry's agreement computed afresh; LOST entries keep theirs. -/
def State.refreshAgreements (s : State) : State :=
  s.withRoster { s.roster with
    entries := s.roster.entries.map fun e =>
      if e.state = .present then { e with agreement := s.agreementOf e.digest } else e }

/-! ### Headers (R60 to R63) -/

/-- The cases of R60. -/
inductive Hearing where
  | first | continuing | newPresent | returned | newAfterLoss
  deriving DecidableEq, Repr

/-- The case of a header against the entry as it stands before the frame (R60). -/
def RosterEntry.hearing (e : RosterEntry) (h : Header) : Hearing :=
  let same := decide (e.join = some h.join ∧ e.kind = some h.kind)
  match e.state with
  | .absent => .first
  | .present => if same then .continuing else .newPresent
  | .lost => if same then .returned else .newAfterLoss

/-- A new-incarnation case. -/
def Hearing.isNew : Hearing → Bool
  | .newPresent => true
  | .newAfterLoss => true
  | .first => false
  | .continuing => false
  | .returned => false

/-- The detail of PEER_JOINED, none in the Continuing case (R60). -/
def Hearing.detail : Hearing → Option Half
  | .first => some 0
  | .returned => some 1
  | .newAfterLoss => some 2
  | .newPresent => some 3
  | .continuing => none

/-- The entry updated from an accepted header (R61, R70): `blockSlice` is the slice of the frame's
blocks, when it carried any. -/
def State.heardEntry (s : State) (e : RosterEntry) (h : Header) (c : Hearing)
    (blockSlice : Option Slice) : RosterEntry :=
  { state := .present, kind := some h.kind
    activity := if h.kind = .capture then h.activity else none
    join := some h.join, lastHeard := some h.index, silence := 0
    lastBlock :=
      match blockSlice with
      | some t => some t
      | none => if c.isNew then none else e.lastBlock
    digest := some h.digest, mirror := h.mirror, lock := h.lock
    agreement := s.agreementOf (some h.digest) }

/-- The end of an old incarnation is reported (R62): to Spans, to the recall service, and to the
rings when the peer is the mirror source (R112). -/
def State.reportIncarnation (s : State) (k : StationId) (e : RosterEntry) : State :=
  let told := (s.incarnationReport k e.lastBlock).purgeRecall k
  if s.roster.mirror = some k then told.closeRun else told

/-- The roster takes a header (R60). -/
def State.applyHeader (s : State) (h : Header) (blockSlice : Option Slice) : State :=
  let k := h.sender
  let e := s.entry k
  let c := e.hearing h
  let s1 := if c.isNew then s.reportIncarnation k e else s
  let s2 := s1.setEntry k (s1.heardEntry e h c blockSlice)
  let s3 :=
    match c.detail with
    | none => s2
    | some d => s2.raise .roster .peerJoined k.val d
  let s4 := if c = .returned then s3.returnReport k (some h.join) else s3
  s4.recompute

/-! ### Silence and loss (R64, R65) -/

/-- One boundary's count of a PRESENT entry (R64). -/
def RosterEntry.age (e : RosterEntry) : RosterEntry :=
  if e.state = .present then { e with silence := e.silence + 1 } else e

/-- The silence counts of every PRESENT entry rise (R64). The own entry is not kept in the table, so
it is not counted. -/
def State.ageEntries (s : State) : State :=
  s.withRoster { s.roster with entries := s.roster.entries.map RosterEntry.age }

/-- An entry goes LOST by the loss test (R64). -/
def State.isLost (s : State) (k : StationId) : Bool :=
  decide (k ≠ s.control.id ∧ (look s.roster.entries k).state = .present ∧
    s.control.charter.lossSlices < (look s.roster.entries k).silence)

/-- One lost peer (R65). -/
def State.losePeer (s : State) (k : StationId) : State :=
  let e := look s.roster.entries k
  let s1 := (s.setEntry k { e with state := .lost }).raise .roster .peerLost k.val
    (sliceDetail (e.lastHeard.getD 0))
  let s2 :=
    if s.roster.mirror = some k then s1.custodyReport k e.join e.lastBlock
    else s1.lossReport k e.lastBlock
  s2.purgeRecall k

/-- The lost peers of a boundary, in ascending ID order (R65). -/
def State.losePeers (s : State) : State :=
  allIds.foldl (fun s k => if s.isLost k then s.losePeer k else s) s

end Sys2Proof.Machine
end

