-- ==== Sys2Proof/Machine/ControlOps.lean ====
section
/-! DEFINITION. The station controller (chapter 9): who may make which request, the charter, the record
condition, STOP and START, and its decisions at a boundary. -/

namespace Sys2Proof.Machine

/-! ### Request authority (R171) -/

/-- The sender is another peer than this station; no frame of its own ID is accepted (R51). -/
def State.hears (s : State) (sender : StationId) : Bool := decide (sender ≠ s.control.id)

/-- The sender is a CONSOLE peer by its roster entry. -/
def State.fromConsole (s : State) (sender : StationId) : Bool :=
  s.hears sender && decide ((s.entry sender).kind = some .console)

/-- The station is in LISTEN, RUN or IDLE. -/
def State.listening (s : State) : Bool := s.active || decide (s.control.mode = some .listen)

/-- A target that is this station's: its ID or 255. -/
def State.targeted (s : State) (target : Byte) : Bool :=
  decide (target.toNat = s.control.id.val ∨ target.toNat = 255)

/-! ### The charter (R166 to R169) -/

/-- A charter comes into force: the rings restart on a change of m (R114) and the digest agreements are
computed afresh (R70). -/
def State.enforce (s : State) (p : PendingCharter) : State :=
  let s1 := if p.charter.mirrorShare ≠ s.control.charter.mirrorShare then s.resplit else s
  let s2 := s1.withControl { s1.control with
    status := .adopted, charter := p.charter, digest := p.digest, pendingCharter := none }
  (s2.raise .control .charterAdopted p.sender.val (sliceDetail p.charter.serial)).refreshAgreements

/-- A first charter adopted in LISTEN (R168). -/
def State.adoptNow (s : State) (p : PendingCharter) : State :=
  let s1 := (s.enforce p).settingsFrom p.charter
  if p.charter.mirrorShare ≠ s.control.charter.mirrorShare then s1.recompute else s1

/-- The pending charter has a given digest. -/
def Control.pendingIs (c : Control) (digest : Word) : Bool :=
  match c.pendingCharter with
  | none => false
  | some p => decide (p.digest = digest)

/-- The second to fifth cases of R167, for a charter in range. -/
def State.judgeCharter (s : State) (p : PendingCharter) : State :=
  let c := s.control
  if c.mode = some .listen ∧ c.status = .unsettled then s.adoptNow p
  else if (c.status = .adopted ∧ p.digest = c.digest) ∨
      (c.status = .defaulted ∧ c.pendingIs p.digest = true) then s
  else if s.active = true ∧ c.status = .defaulted ∧ c.pendingCharter = none then
    s.withControl { c with pendingCharter := some p }
  else if c.status = .adopted ∨ (c.status = .defaulted ∧ c.pendingCharter ≠ none) then
    s.raise .control .charterIgnored p.sender.val (sliceDetail p.charter.serial)
  else s

/-- A CHARTER request (R167, R171, R173). A body that is not 272 bytes long is passed over. -/
def State.takeCharter (s : State) (sender : StationId) (body : List Byte) : State :=
  if s.fromConsole sender = true ∧ s.listening = true ∧ body.length = 272 then
    match readCharter body with
    | .error k => s.raise .control .charterRejected sender.val (BitVec.ofNat 16 k)
    | .ok c => s.judgeCharter { charter := c, digest := crc32 body, sender := sender }
  else s

/-! ### The other requests -/

/-- A condition becomes pending, and the join correction is cleared (R170). -/
def State.setPending (s : State) (c : Condition) : State :=
  s.withControl { s.control with pendingCondition := some c, correction := false }

/-- A CONDITION request (R170). -/
def State.takeCondition (s : State) (sender : StationId) (code : Byte) : State :=
  if s.fromConsole sender = true ∧ s.active = true then
    match conditionOf code with
    | none => s
    | some c => s.setPending c
  else s

/-- A TIME_MARK request (R16). -/
def State.takeTimeMark (s : State) (sender : StationId) (slice : Slice) (day : Half) (ms : Word) :
    State :=
  if s.fromConsole sender = true ∧ s.listening = true then
    s.withClock (s.clock.takeMark slice day ms)
  else s

/-- A PROBE request (R172). -/
def State.takeProbe (s : State) (sender : StationId) (target : Byte) (value : Half) : State :=
  if s.fromConsole sender = true ∧ s.active = true ∧ s.targeted target = true then
    s.raise .control .test sender.val value
  else s

/-- A STOP request (R164): further STOP requests leave a pending one as it is. -/
def State.takeStop (s : State) (sender : StationId) (target : Byte) : State :=
  if s.fromConsole sender = true ∧ s.control.mode = some .run ∧ s.targeted target = true
      ∧ s.control.pendingStop = none then
    s.withControl { s.control with pendingStop := some sender }
  else s

/-- A START request (R165); a later one records its own requester (log 10). -/
def State.takeStart (s : State) (sender : StationId) (target : Byte) : State :=
  if s.fromConsole sender = true ∧ s.control.mode = some .idle ∧ s.targeted target = true then
    s.withControl { s.control with pendingStart := some sender }
  else s

/-- An ARCHIVE_MARK request (R107, R171). -/
def State.takeArchiveMark (s : State) (sender : StationId) (pairs : List (Byte × Slice)) : State :=
  if s.hears sender = true ∧ s.listening = true ∧ s.control.charter.archive = some sender
      ∧ 1 ≤ pairs.length ∧ pairs.length ≤ 16 then
    s.withRings (s.rings.takePairs pairs)
  else s

/-- A RECALL request (R140, R171). -/
def State.takeRecallRequest (s : State) (sender : StationId) (tag : Half) (holder source mask : Byte)
    (first last : Slice) : State :=
  if s.hears sender = true ∧ s.active = true then
    s.takeRecall sender tag holder source mask first last
  else s

/-- One request item of an accepted frame (R171). -/
def State.takeRequest (s : State) (sender : StationId) (r : Request) : State :=
  match r with
  | .charter body => s.takeCharter sender body
  | .condition code => s.takeCondition sender code
  | .timeMark slice day ms => s.takeTimeMark sender slice day ms
  | .probe target value => s.takeProbe sender target value
  | .stop target => s.takeStop sender target
  | .start target => s.takeStart sender target
  | .archiveMark pairs => s.takeArchiveMark sender pairs
  | .recallRequest tag holder source mask first last =>
    s.takeRecallRequest sender tag holder source mask first last

/-! ### The reference's condition (R163) -/

/-- An accepted window frame's header condition: followed in START and LISTEN, and the join correction
in RUN and IDLE (R163). -/
def State.hearCondition (s : State) (h : Header) : State :=
  if s.roster.reference = some h.sender then
    if s.active then
      if s.control.correction then
        let disarmed := s.withControl { s.control with correction := false }
        if h.condition ≠ s.control.condition then disarmed.setPending h.condition else disarmed
      else s
    else s.withControl { s.control with followed := some h.condition }
  else s

/-! ### The controller at a boundary -/

/-- A pending charter is adopted (R169). -/
def State.adoptPending (s : State) : State :=
  match s.control.pendingCharter with
  | none => s
  | some p => s.enforce p

/-- A pending condition takes effect (R170). -/
def State.changeCondition (s : State) : State :=
  match s.control.pendingCondition with
  | none => s
  | some c => s.withControl { s.control with condition := c, pendingCondition := none }

/-- Codes of STATE_CHANGED (R173). -/
def stateCode : Mode → Nat
  | .start => 0
  | .listen => 1
  | .run => 2
  | .idle => 3

/-- A change of station state with its notice (R173). -/
def State.enterMode (s : State) (m : Mode) (requester : Option StationId) : State :=
  (s.withControl { s.control with mode := some m }).raise .control .stateChanged (stateCode m)
    (BitVec.ofNat 16 (idOr255 requester))

/-- The charter status is settled when LISTEN reaches 300 boundaries (R161). -/
def State.settleDefaults (s : State) : State :=
  if 300 ≤ s.control.listen ∧ s.control.status = .unsettled then
    (s.withControl { s.control with status := .defaulted }).raise .control .charterDefaulted 255 0
  else s

/-- LISTEN ends at this boundary (R161). -/
def State.listenOver (s : State) : Bool :=
  decide ((50 ≤ s.control.listen ∧ s.control.status = .adopted) ∨ 300 ≤ s.control.listen)

/-- The station controller's actions at the boundary that ends LISTEN (R162). -/
def State.leaveListen (s : State) (stopN : Bool) : State :=
  (s.withControl { s.control with
    join := some s.clock.index
    condition := s.control.followed.getD s.control.condition
    correction := s.control.followed.isSome
    followed := none }).enterMode (if stopN then .run else .idle) none

/-- The decision of R161 on a listen count already raised. -/
def State.decideListen (s : State) (stopN : Bool) : State :=
  let settled := s.settleDefaults
  if settled.listenOver then settled.leaveListen stopN else settled

/-- The changes of station state at a boundary (R160, R161, R164, R165). When a STOP is pending and STOP_N is
low too, STATE_CHANGED reports the requester's ID (R173). -/
def State.changeMode (s : State) (stopN : Bool) : State :=
  match s.control.mode with
  | none => s
  | some .start =>
    if s.control.storeSeen then
      (s.withControl { s.control with listen := 0 }).enterMode .listen none
    else s
  | some .listen =>
    (s.withControl { s.control with listen := s.control.listen + 1 }).decideListen stopN
  | some .run =>
    if s.control.pendingStop.isSome ∨ stopN = false then
      (s.withControl { s.control with pendingStop := none }).enterMode .idle s.control.pendingStop
    else s
  | some .idle =>
    match s.control.pendingStart with
    | none => s
    | some k =>
      let cleared := s.withControl { s.control with pendingStart := none }
      if stopN then cleared.enterMode .run (some k) else cleared

/-- The station controller at a boundary: CHARTER_ADOPTED comes before STATE_CHANGED (R173). -/
def State.controlBoundary (s : State) (stopN : Bool) : State :=
  (s.adoptPending.changeCondition).changeMode stopN

/-- What splits the spans at a boundary that ends a captured slice (R78), before the controller has
acted: the first in the list STOPPED, REALIGNED, CONDITION. -/
def State.splitAt (s : State) (stopN stepped : Bool) (ended next : Slice) : Option Split :=
  let condition := s.control.pendingCondition.getD s.control.condition
  let because (cause : CloseCause) : Option Split :=
    some { cause := cause, ended := ended, next := next, condition := condition }
  if s.control.mode ≠ some .run then none
  else if s.control.pendingStop.isSome ∨ stopN = false then because .stopped
  else if stepped then because .realigned
  else if condition ≠ s.control.condition then because .condition
  else none

end Sys2Proof.Machine
end

