-- ==== Sys2Proof/Machine/LineCode.lean ====
section
/-! DEFINITION. The line code of the room link (R34): what the station drives on the pair, half-cell by
half-cell, what the pair carries when two peers drive it, how the receiver reads it, and the readback
compare (R44, R46, R48). -/

namespace Sys2Proof.Machine

/-- The level after a change of line polarity. A frame begins on an undriven line, and its first half-cell
is `up` by the naming of the two polarities. -/
def changed : LineLevel → LineLevel
  | .zero => .up
  | .up => .down
  | .down => .up

/-- The two halves of a bit cell (R34): the cell begins with a change, and a 1 bit has a second one at its
middle. -/
def bitCell (before : LineLevel) (bit : Bool) : LineLevel × LineLevel :=
  let first := changed before
  (first, if bit then changed first else first)

/-- The half-cells of a row of bits, after a level. -/
def driveBits : LineLevel → List Bool → List LineLevel
  | _, [] => []
  | before, b :: bs =>
    let cell := bitCell before b
    cell.1 :: cell.2 :: driveBits cell.2 bs

/-- A byte's bits in line order, least significant first (R34). -/
def byteBits (b : Byte) : List Bool := (List.range 8).map b.getLsbD

/-- The half-cells of a frame: its bytes back to back (R34). -/
def lineLevels (bytes : List Byte) : List LineLevel := driveBits .zero (bytes.flatMap byteBits)

/-- What the pair carries in a half-cell that two peers drive (R34): an undriven peer leaves it to the
other, and two that differ leave it near zero differential. -/
def mixed (a b : LineLevel) : LineLevel :=
  match a, b with
  | .zero, x => x
  | x, .zero => x
  | .up, .up => .up
  | .down, .down => .down
  | .up, .down => .zero
  | .down, .up => .zero

/-- The readback compare (R34): the first half-cell, counted from `n`, in which the receiver reads another
level than the station drives. -/
def mismatchFrom : Nat → List LineLevel → List LineLevel → Option Nat
  | n, d :: ds, r :: rs => if d = r then mismatchFrom (n + 1) ds rs else some n
  | _, [], _ => none
  | _, _ :: _, [] => none

/-- The number of bytes of a frame that had been driven completely before the byte in which the readback
first mismatched (R57), when it did: a byte has sixteen half-cells. -/
def bytesBeforeMismatch (bytes : List Byte) (read : List LineLevel) : Option Nat :=
  match mismatchFrom 0 (lineLevels bytes) read with
  | none => none
  | some i => some (i / 16)

/-- The bits of a row of half-cells: a cell with a change at its middle is a 1. -/
def readBits : List LineLevel → List Bool
  | [] => []
  | [_] => []
  | a :: b :: rest => decide (a ≠ b) :: readBits rest

/-- The bytes of a row of bits, least significant bit first. -/
def bitsBytes : List Bool → List Byte
  | a :: b :: c :: d :: e :: f :: g :: h :: rest =>
    (flagBit 8 a 0 ||| flagBit 8 b 1 ||| flagBit 8 c 2 ||| flagBit 8 d 3 ||| flagBit 8 e 4
      ||| flagBit 8 f 5 ||| flagBit 8 g 6 ||| flagBit 8 h 7) :: bitsBytes rest
  | _ => []

/-- The bytes the receiver reads from a row of half-cells. -/
def readLevels (levels : List LineLevel) : List Byte := bitsBytes (readBits levels)

/-- The half-cells at the head of a row that carry one level, the first being `x`. -/
def steadyRun (x : LineLevel) : List LineLevel → Nat
  | [] => 0
  | y :: rest => if y = x then steadyRun x rest + 1 else 0

/-- The receiver reads silence (R34): more than two bit cells, four half-cells, without a change. -/
def readsSilence : List LineLevel → Bool
  | [] => false
  | x :: rest => decide (4 ≤ steadyRun x rest) || readsSilence rest

/-- The bytes of a frame in flight, lead-in counted. -/
def Flight.bytes : Flight → List Byte
  | .windowFrame _ _ _ _ _ bytes => bytes
  | .recallFrame _ bytes => bytes

/-- The half-cells the station drives: those of the frame in flight, and none while it drives nothing. -/
def State.lineDriven (s : State) : List LineLevel :=
  match s.link.flight with
  | none => []
  | some f => lineLevels f.bytes

end Sys2Proof.Machine
end

