-- ==== Sys2Proof/Machine/LinkOps.lean ====
section
/-! DEFINITION. The room link (chapter 3): this station's frames, the outcomes of its windows, the
frames it hears, and the recall window holder. -/

namespace Sys2Proof.Machine

/-- The link's state replaced. -/
def State.withLink (s : State) (l : Link) : State := { s with link := l }

/-! ### The periodic plan (R39 to R41) -/

/-- The plan items in the order of the table of R39. -/
def planItems : List PlanItem := [.spanBeacon, .rosterView, .mirrorRuns, .counterReport]

/-- A plan item's period in slices (R39). -/
def planPeriod : PlanItem → Nat
  | .spanBeacon => 100
  | .rosterView => 50
  | .mirrorRuns => 100
  | .counterReport => 500

/-- A plan item's offset for a station (R39). -/
def planOffset (p : PlanItem) (id : StationId) : Nat :=
  match p with
  | .spanBeacon => 6 * id.val % 100
  | .rosterView => 3 * id.val % 50
  | .mirrorRuns => (6 * id.val + 50) % 100
  | .counterReport => 30 * id.val % 500

/-- A plan item falls due in a slice (R40). -/
def fallsDue (id : StationId) (slice : Slice) (p : PlanItem) : Bool :=
  decide (slice.toNat % planPeriod p = planOffset p id)

/-- The pending items after the marking of a slice (R40). -/
def markDue (id : StationId) (slice : Slice) (due : List PlanItem) : List PlanItem :=
  planItems.filter fun p => decide (p ∈ due) || fallsDue id slice p

/-- The station's own OPEN spans in ascending lane order, as items (R87). -/
def State.beaconEntries (s : State) : List SpanItem :=
  (allLanes.flatMap fun l => s.spans.table.filter fun e =>
    decide (e.status = .opened ∧ e.key.owner = s.control.id ∧ e.key.lane = l)).map SpanEntry.item

/-- The contents of a periodic item, taken at assembly (R119, R178 to R180). -/
def State.planBytes (s : State) : PlanItem → List Byte
  | .spanBeacon => beaconBytes s.beaconEntries
  | .rosterView => rosterViewBytes (allIds.map s.entry)
  | .mirrorRuns => mirrorRunsBytes s.rings.runs
  | .counterReport =>
    counterReportBytes s.link.rejects s.link.collisions s.seat.unsentSlices s.store.drops
      s.rings.unarchived s.spans.outboxDrops s.clock.trim s.store.peak s.store.reinits

/-- The items placed in a room left, in table order; a larger one is passed over (R41). -/
def placeItems (size : PlanItem → Nat) : List PlanItem → Nat → List PlanItem
  | [], _ => []
  | p :: rest, room =>
    if size p ≤ room then p :: placeItems size rest (room - size p) else placeItems size rest room

/-! ### Assembly (R37, R38) -/

/-- The bytes of the mandatory sections (R38). -/
def mandatorySize (blocks : List Block) (items : List SpanItem) (notices : List Notice) : Nat :=
  52 + 332 * blocks.length + (items.map itemSize).sum + 12 * notices.length

/-- The blocks of the page awaiting outcome, in lane order. -/
def State.frameBlocks (s : State) : List Block :=
  match s.awaitingPage with
  | none => []
  | some p => p.slots.filterMap id

/-- The span items a frame carries. -/
def State.frameItems (s : State) : List SpanItem := s.spans.outbox.take 24

/-- The notices a frame carries. -/
def State.frameNotices (s : State) : List Notice := s.notices.entries.take 4

/-- The periodic items placed (R41). -/
def State.framePlan (s : State) : List PlanItem :=
  placeItems (fun p => (s.planBytes p).length) s.link.due
    (Config.windowLimit - mandatorySize s.frameBlocks s.frameItems s.frameNotices)

/-- The recall queue holds a request, so the frame claims (R143). -/
def State.claims (s : State) : Bool := !s.server.queue.isEmpty

/-- The window frame proper less its CRC (R37, R38). -/
def State.windowProper (s : State) : List Byte :=
  headerBytes s.control.id (s.activity.getD .run) s.clock.index (s.control.join.getD 0)
      s.control.digest s.control.condition s.roster.mirror (decide (s.clock.discipline = .locked))
      s.claims s.notices.dropped s.frameBlocks.length s.frameItems.length s.frameNotices.length
      s.framePlan.length
    ++ s.frameBlocks.flatMap Block.bytes ++ s.frameItems.flatMap itemBytes
    ++ s.frameNotices.flatMap Notice.bytes ++ s.framePlan.flatMap s.planBytes

/-- What a window frame assembled now is (R44). -/
def State.windowFlight (s : State) : Flight :=
  .windowFrame (s.awaitingPage.map OwnPage.slice) s.frameItems.length s.frameNotices.length s.framePlan
    s.claims (lineBytes s.windowProper)

/-! ### Transmission (R43 to R48) -/

/-- The first two conditions of R43. -/
def State.mayTransmit (s : State) : Bool := s.active && decide (s.clock.discipline ≠ .realign)

/-- A frame is abandoned or rejected: the reject counter rises (R50, R51). -/
def Link.reject (l : Link) : Link :=
  { l with rx := .hunting, leadIn := none, rejects := bump l.rejects }

/-- The station begins to drive a frame (R44, R47, R50): a frame being received is abandoned. -/
def Link.drive (l : Link) (tx : TxState) (f : Flight) : Link :=
  { (if l.rx = .receiving then l.reject else l) with tx := tx, flight := some f, rx := .readback }

/-- The station stops driving. -/
def Link.release (l : Link) : Link := { l with tx := .silent, flight := none, rx := .hunting }

/-- The notice queue at assembly (R176). -/
def NoticeQueue.carry (q : NoticeQueue) : NoticeQueue :=
  { q with carried := some ((q.entries.take 4).length, q.dropped), droppedSince := 0 }

/-- The notice queue when the frame has been sent complete (R176). Dropped since assembly is then 0, as the
table of 10.5 shows. -/
def NoticeQueue.drain (q : NoticeQueue) : NoticeQueue :=
  match q.carried with
  | none => q
  | some (n, _) =>
    { q with
      entries := q.entries.drop n, dropped := q.droppedSince, droppedSince := 0, carried := none }

/-- The start of the station's own window (R43, R44). -/
def State.startWindow (s : State) : State :=
  if s.mayTransmit then
    { s.withLink (s.link.drive .sendingWindow s.windowFlight) with notices := s.notices.carry }
  else s.settleUnsent

/-- A window frame sent complete, by what it carried (R45, R129). -/
def State.windowSent (s : State) (page : Option Slice) (spanItems : Nat) (periodic : List PlanItem)
    (claim : Bool) : State :=
  let s1 := if page.isSome then s.settleSent else s
  let s2 := s1.withSpans { s1.spans with outbox := s1.spans.outbox.drop spanItems }
  let s3 := { s2 with notices := s2.notices.drain }
  let s4 :=
    if .counterReport ∈ periodic then s3.withStore { s3.store with peak := s3.store.debt } else s3
  s4.withLink { s4.link.release with
    due := s4.link.due.filter fun p => decide (p ∉ periodic)
    claims :=
      if claim = true ∧ s.control.id ∉ s4.link.claims then s4.link.claims ++ [s.control.id]
      else s4.link.claims }

/-- An abort on readback is counted and reported (R57): `subject` 0 for a window frame, 1 for a recall
frame. The frame is no longer in flight when the notice joins, so a COLLISION that a full queue drops does
not raise dropped since assembly (DESIGN CHOICE, log 37). -/
def State.collide (s : State) (subject driven : Nat) : State :=
  (s.withLink { s.link.release with collisions := bump s.link.collisions }).raise .link .collision
    subject (BitVec.ofNat 16 (if driven < 65535 then driven else 65535))

/-- A window frame aborted (R46, R176). Dropped since assembly keeps its value until the next assembly (DESIGN
CHOICE, log 45). -/
def State.windowAborted (s : State) (page : Option Slice) (driven : Nat) : State :=
  let s1 := if page.isSome then s.settleUnsent else s
  ({ s1 with notices := { s1.notices with carried := none } }).collide 0 driven

/-- The recall frame driven at byte-time 58,000 (R47). -/
def State.driveRecall (s : State) : State :=
  let bytes := lineBytes (recallProper s.control.id s.clock.index s.server.buffer)
  (s.withServer s.server.hand).withLink
    (s.link.drive .sendingRecall (.recallFrame s.server.buffer.length bytes))

/-- Byte-time 58,000 of a held slice (R47, R149, R152). -/
def State.startRecall (s : State) : State :=
  let s1 := s.withServer s.server.endReading
  if s1.mayTransmit = true ∧ s1.server.buffer ≠ [] then s1.driveRecall else s1

/-- A recall frame sent complete (R47, R150). -/
def State.recallSent (s : State) : State :=
  (s.withServer s.server.sent).withLink { s.link.release with lastHolder := s.control.id }

/-- A recall frame aborted (R48, R151). -/
def State.recallAborted (s : State) (driven : Nat) : State :=
  (s.withServer s.server.aborted).collide 1 driven

/-! ### Reception (R50 to R54) -/

/-- The slice of a frame's blocks, when it carries any. -/
def blockSlice (bs : List Block) : Option Slice :=
  match bs with
  | [] => none
  | b :: _ => some b.slice

/-- The mirror page of a frame's blocks (R108). -/
def mirrorPageOf (source : StationId) (t : Slice) (bs : List Block) : MirrorPage :=
  { slice := t, source := source
    slots := allLanes.map fun l => bs.find? fun b => decide (b.lane = l) }

/-- The mirror path takes a frame's blocks (R108, R112). -/
def State.mirrorBlocks (s : State) (sender : StationId) (bs : List Block) : State :=
  if s.roster.mirror = some sender then
    match blockSlice bs with
    | none => s.closeRun
    | some t => s.stageMirror (mirrorPageOf sender t bs)
  else s

/-- A claim heard (R54). -/
def State.hearClaim (s : State) (h : Header) : State :=
  if h.claim = true ∧ h.sender ∉ s.link.claims then
    s.withLink { s.link with claims := s.link.claims ++ [h.sender] }
  else s

/-- The lead-in instant of a frame goes to the clock. -/
def State.clockLeadIn (s : State) (h : Header) (l : Option LeadIn) : State :=
  match l with
  | none => s
  | some x => s.clockFrame h x

/-- An accepted window frame is handed to its owners (R52, R163). -/
def State.acceptWindow (s : State) (f : WindowFrame) (l : Option LeadIn) : State :=
  let k := f.header.sender
  let s1 := (s.applyHeader f.header (blockSlice f.blocks)).hearCondition f.header
  let s2 := (s1.clockLeadIn f.header l).mirrorBlocks k f.blocks
  let s3 := f.spans.foldl (fun s i => s.applyItem k i) s2
  let s4 := f.beacons.foldl (fun s es => s.applyBeacon k es) s3
  let s5 := f.requests.foldl (fun s r => s.takeRequest k r) s4
  s5.hearClaim f.header

/-- What the receiver makes of a frame's bytes (R51): the sender's ID is not this station's own. -/
inductive Verdict where
  | windowFrame (f : WindowFrame)
  | recallFrame (sender : StationId)
  | rejected
  deriving DecidableEq, Repr

/-- The judgment of R51 at the station of an ID. A recall frame of no items is accepted (log 14). -/
def judgeFrame (id : StationId) (bs : List Byte) : Verdict :=
  if byteAt bs 0 = 1 then
    match readWindow bs with
    | none => .rejected
    | some f => if f.header.sender = id then .rejected else .windowFrame f
  else if byteAt bs 0 = 2 then
    match readRecallFrame bs with
    | none => .rejected
    | some k => if k = id then .rejected else .recallFrame k
  else .rejected

/-- The receiver is back in HUNTING. -/
def Link.hunt (l : Link) : Link := { l with rx := .hunting, leadIn := none }

/-! ### The boundary (R55, R56) -/

/-- The holder by rotation: the first claimant after H, H itself last (R55). -/
def nextHolder (h : StationId) (claims : List StationId) : Option StationId :=
  (allIds.map fun i => h + 1 + i).find? fun k => decide (k ∈ claims)

/-- The link at a boundary (R56). -/
def Link.boundary (l : Link) (id : StationId) (slice : Slice) : Link :=
  { l with
    holder := nextHolder l.lastHolder l.claims
    claims := []
    due := markDue id slice l.due
    leadIn := l.leadIn.map fun x => { x with boundaries := x.boundaries + 1 } }

end Sys2Proof.Machine
end

