-- ==== Sys2Proof/Machine/Boundary.lean ====
section
/-! DEFINITION. What a slice boundary, ordinary or step, does in every block (R3, R14, R28, R56, R64,
R68, R74, R96, R144, R160 to R170), and how a command ends. The order between chapters is log 19. -/

namespace Sys2Proof.Machine

/-- Seat capture's state replaced. -/
def State.withSeat (s : State) (x : SeatCapture) : State := { s with seat := x }

/-! ### Seat capture (R23 to R29, R33) -/

/-- What the clock presents with a boundary (R3): the ended slice, the slice that begins, the STEPPED
marking, and whether the discipline state was other than LOCKED. -/
structure Presented where
  ended : Slice
  next : Slice
  stepped : Bool
  unlocked : Bool
  deriving DecidableEq, Repr

/-- The block of a lane for the ended slice (R23, R24). -/
def State.blockOf (s : State) (p : Presented) (l : Lane) : Block :=
  completeBlock (look s.seat.accs l) l p.ended p.stepped p.unlocked s.control.condition

/-- A lane's change of fault state and what its notice reports. -/
def State.faultOf (s : State) (p : Presented) (l : Lane) : LaneFault × FaultChange × Slice × Nat :=
  (look s.seat.faults l).update (s.blockOf p l)

/-- One lane's fault state after its block, with LANE_FAULT or LANE_RESTORED (R26, R27, R33). `origin`
is the state before the lanes' updates. -/
def State.updateLane (origin : State) (p : Presented) (s : State) (l : Lane) : State :=
  let r := origin.faultOf p l
  let set := s.withSeat { s.seat with faults := put s.seat.faults l r.1 }
  match r.2.1 with
  | .none => set
  | .enteredFault =>
    set.raise .seat .laneFault (roomSeat s.control.id l) (sliceDetail r.2.2.1)
  | .restored =>
    set.raise .seat .laneRestored (roomSeat s.control.id l) (BitVec.ofNat 16 r.2.2.2)

/-- The charter that takes effect at this boundary (R81). -/
def State.newCharter (s : State) : Option Charter :=
  match s.control.pendingCharter with
  | none => none
  | some p => some p.charter

/-- A changed detect setting at a boundary that ends a slice that was not captured (R81, R169). -/
def State.detectOnly (c : Option Charter) (s : State) (l : Lane) : State :=
  match c with
  | none => s
  | some c => s.detectChange l c

/-- The slice page of the ended slice (R29). -/
def State.pageOf (s : State) (p : Presented) : OwnPage :=
  { slice := p.ended, stepped := p.stepped, outcome := .awaiting
    slots := allLanes.map fun l => if l.val < s.seat.laneCount then some (s.blockOf p l) else none }

/-- The second to fifth actions of R28 at a boundary that ends a captured slice. -/
def State.capturedBoundary (s : State) (p : Presented) (split : Option Split) : State :=
  let faulted := s.presentLanes.foldl (s.updateLane p) s
  let spoken := s.presentLanes.foldl
    (fun t l => t.detectorLane l (s.blockOf p l) (s.faultOf p l).2.1 s.newCharter split) faulted
  spoken.stageCapture (s.pageOf p)

/-- Seat capture at a boundary, but for the sixth action of R28, which follows the station
controller's. -/
def State.seatBoundary (s : State) (p : Presented) (split : Option Split) : State :=
  let settled := s.settleUnsent
  if settled.seat.capturing then settled.capturedBoundary p split
  else settled.presentLanes.foldl (State.detectOnly settled.newCharter) settled

/-- The sixth action of R28: the new slice is captured when the station is in RUN (R21); the
accumulators are cleared, and stay so in a slice that is not captured. -/
def State.beginSlice (s : State) : State :=
  s.withSeat { s.seat with
    capturing := decide (s.control.mode = some .run)
    accs := Vector.replicate 8 Accumulator.cleared }

/-! ### The clock (R3, R14) -/

/-- The clock's actions: the new slice begins, and at a step boundary the step is taken. -/
def State.clockBoundary (s : State) (p : Presented) (len : Nat) : State :=
  let turned := s.withClock (s.clock.turn p.next len)
  if p.stepped then turned.takeStep p.ended else turned

/-! ### All blocks -/

/-- The clock leaves FREE when this boundary has ended LISTEN (R7): `was` is the mode before it. -/
def State.endFree (s : State) (was : Option Mode) : State :=
  if was = some .listen ∧ s.active = true then s.leaveFree else s

/-- The link and the recall service at a boundary (R55, R56, R144). -/
def State.linkBoundary (s : State) : State :=
  let linked := s.withLink (s.link.boundary s.control.id s.clock.index)
  linked.withServer (linked.server.hold (decide (linked.link.holder = some linked.control.id)))

/-- The boundary in every block, in the order of log 19: clock; orphan timeout; losses; seat capture
with the span detectors; station controller; selections; capture of the new slice; link and recall
service. -/
def State.boundary (s : State) (stopN : Bool) (p : Presented) (len : Nat) : State :=
  let split := s.splitAt stopN p.stepped p.ended p.next
  let turned := ({ s with stopN := stopN }).clockBoundary p len
  let reported := turned.ageOrphans.timeOutOrphans.ageEntries.losePeers
  let seated := reported.seatBoundary p split
  let controlled := seated.controlBoundary stopN
  let selected := controlled.recompute.endFree s.control.mode
  selected.beginSlice.linkBoundary

/-! ### How a command ends -/

/-- The end of a command at which claims on the store may have appeared: the store's grant (log 17),
and the notices raised join the queue. -/
def State.finish (s : State) : State := s.grant.settleNotices

/-- A command's effect while RESET_N is high; while it is low every block is held in reset (R159). -/
def State.whenRunning (s : State) (f : State → State) : State := if s.resetN then f s else s

end Sys2Proof.Machine
end

