-- ==== Sys2Proof/Machine/ClockCommands.lean ====
section
/-! DEFINITION. The commands of the court clock and of slice boundaries: SAMPLE_PERIOD_END,
SLICE_BOUNDARY, STEP_BOUNDARY, PEER_LOST, ORPHAN_TIMEOUT, LISTEN_END. -/

namespace Sys2Proof.Machine

/-- What a lane's data line carried in one sample period (R19): `line` holds its level in bit period `i`
as bit `i`. The valid flag is bit period 1, the sample bit periods 2 to 17, most significant bit first;
the others are ignored. -/
def readLine (line : BitVec 50) : LaneAnswer :=
  { valid := line.getLsbD 1, sample := (line.extractLsb' 2 16).reverse }

/-- The answer of a lane; a lane the list leaves out is not marked valid (log 26). -/
def answerOf (lines : List (BitVec 50)) (l : Lane) : LaneAnswer := readLine (lines.getD l.val 0)

/-- One present lane's sample of the period (R21). -/
def SeatCapture.sample (x : SeatCapture) (lines : List (BitVec 50)) (l : Lane) : SeatCapture :=
  { x with accs := put x.accs l ((look x.accs l).take (answerOf lines l)) }

/-- Every present lane's sample of the period, in a captured slice (R21). -/
def State.sampleLanes (s : State) (lines : List (BitVec 50)) : SeatCapture :=
  if s.seat.capturing then s.presentLanes.foldl (fun x l => x.sample lines l) s.seat else s.seat

/-- SAMPLE_PERIOD_END (R1, R21). -/
def State.periodEnd (s : State) (lines : List (BitVec 50)) : State :=
  { s with clock := s.clock.endPeriod, seat := s.sampleLanes lines }

/-- What an ordinary boundary presents (R3). -/
def State.ordinary (s : State) : Presented :=
  { ended := s.clock.index, next := s.clock.index + 1, stepped := false
    unlocked := decide (s.clock.discipline ≠ .locked) }

/-- What a step boundary presents (R3, R14). -/
def State.stepTo (s : State) (plan : StepPlan) : Presented :=
  { ended := s.clock.index, next := plan.index, stepped := true
    unlocked := decide (s.clock.discipline ≠ .locked) }

/-- An ordinary boundary; while a step plan stands, ordinary boundaries do not occur (R14). A slice whose
plan R6 discarded after its ordinary end had passed ends at this command too, and its length is recorded
as 240,000 + a (DESIGN CHOICE, log 35). -/
def State.sliceBoundary (s : State) (stopN : Bool) : State :=
  match s.clock.plan with
  | some _ => s
  | none => (s.boundary stopN s.ordinary (sliceLength s.clock.applied)).finish

/-- The planned step boundary (R14, R15); without a plan there is none. -/
def State.stepBoundary (s : State) (stopN : Bool) : State :=
  match s.clock.plan with
  | none => s
  | some plan => (s.boundary stopN (s.stepTo plan) plan.count).finish

/-- The losses of every entry whose silence count exceeds loss_slices, and the recomputation (R65,
R68, log 2). -/
def State.losses (s : State) : State := s.losePeers.recompute.finish

/-- The end of LISTEN (R161, R162, R68, R7, R21, log 2), when the listen count and the charter status
call for it. Commanded by itself while a step plan stands, it leaves FREE at once and keeps the plan (DESIGN
CHOICE, log 46). -/
def State.listenEnds (s : State) (stopN : Bool) : State :=
  if s.control.mode = some .listen ∧ s.listenOver = true then
    ((({ s with stopN := stopN }).decideListen stopN).recompute.endFree
      (some .listen)).beginSlice.settleNotices
  else s

/-- SAMPLE_PERIOD_END. -/
def execSamplePeriodEnd (lines : List (BitVec 50)) (s : State) :
    Host.Outcome State Fault Refusal :=
  .next (s.whenRunning fun s => s.periodEnd lines)

/-- SLICE_BOUNDARY. -/
def execSliceBoundary (stopN : Bool) (s : State) : Host.Outcome State Fault Refusal :=
  .next (s.whenRunning fun s => s.sliceBoundary stopN)

/-- STEP_BOUNDARY. -/
def execStepBoundary (stopN : Bool) (s : State) : Host.Outcome State Fault Refusal :=
  .next (s.whenRunning fun s => s.stepBoundary stopN)

/-- PEER_LOST. -/
def execPeerLost (s : State) : Host.Outcome State Fault Refusal :=
  .next (s.whenRunning State.losses)

/-- ORPHAN_TIMEOUT: the entries whose orphan count has reached orphan_slices (R96, log 2). -/
def execOrphanTimeout (s : State) : Host.Outcome State Fault Refusal :=
  .next (s.whenRunning State.timeOutOrphans)

/-- LISTEN_END. -/
def execListenEnd (stopN : Bool) (s : State) : Host.Outcome State Fault Refusal :=
  .next (s.whenRunning fun s => s.listenEnds stopN)

end Sys2Proof.Machine
end

