-- ==== Sys2Proof/Machine/LinkCommands.lean ====
section
/-! DEFINITION. The commands of the room link: the station's own windows and frames, and the frames it
hears. A command whose event cannot occur in the link's present state has no effect (log 3). -/

namespace Sys2Proof.Machine

/-- The start of the station's own window. -/
def State.ownWindow (s : State) : State :=
  match s.link.tx with
  | .silent => s.startWindow.finish
  | .sendingWindow => s
  | .sendingRecall => s

/-- The last CRC byte of the window frame in flight. The carried notices leave the queue before the store
acts at the command's end: a notice the rings raise there, as the write of the page just SENT begins, meets
the drained queue (DESIGN CHOICE, log 40). -/
def State.ownFrameSent (s : State) : State :=
  match s.link.flight with
  | some (.windowFrame page spanItems _ periodic claim _) =>
    (s.windowSent page spanItems periodic claim).finish
  | some (.recallFrame _ _) => s
  | none => s

/-- The readback of the window frame in flight: nothing while it agrees with what is driven (log 3). The
frame is no longer in flight when the store acts at the command's end: a notice the rings raise there, as
the write of the page just settled UNSENT begins, does not raise dropped since assembly when a full queue
drops it (DESIGN CHOICE, log 42). -/
def State.ownFrameAborted (s : State) (read : List LineLevel) : State :=
  match s.link.flight with
  | some (.windowFrame page _ _ _ _ bytes) =>
    match bytesBeforeMismatch bytes read with
    | none => s
    | some driven => (s.windowAborted page driven).finish
  | some (.recallFrame _ _) => s
  | none => s

/-- Byte-time 58,000: nothing outside a reading period (log 29). -/
def State.recallWindow (s : State) : State :=
  match s.link.tx with
  | .silent => if s.server.reading then s.startRecall else s
  | .sendingWindow => s
  | .sendingRecall => s

/-- The last CRC byte of the recall frame in flight. -/
def State.recallFrameSent (s : State) : State :=
  match s.link.flight with
  | some (.recallFrame _ _) => s.recallSent
  | some (.windowFrame _ _ _ _ _ _) => s
  | none => s

/-- The readback of the recall frame in flight: nothing while it agrees with what is driven (log 3). -/
def State.recallFrameAborted (s : State) (read : List LineLevel) : State :=
  match s.link.flight with
  | some (.recallFrame _ bytes) =>
    match bytesBeforeMismatch bytes read with
    | none => s
    | some driven => (s.recallAborted driven).settleNotices
  | some (.windowFrame _ _ _ _ _ _) => s
  | none => s

/-- The lead-in pattern found in HUNTING (R50), its first byte begun `ago` counts ago. No pattern has begun
before the clock has (log 33). -/
def State.leadInFound (s : State) (ago : Nat) : State :=
  match s.link.rx with
  | .hunting =>
    match s.clock.instantAgo ago with
    | none => s
    | some l => s.withLink { s.link with rx := .receiving, leadIn := some l }
  | .receiving => s
  | .readback => s

/-- A header that fixes a length beyond its kind's limit ends reception at once (R51). -/
def State.headerReceived (s : State) (header : List Byte) : State :=
  match s.link.rx with
  | .receiving => if headerTooLong header then s.withLink s.link.reject else s
  | .hunting => s
  | .readback => s

/-- Silence before the length the header fixes (R51). -/
def State.frameCut (s : State) : State :=
  match s.link.rx with
  | .receiving => s.withLink s.link.reject
  | .hunting => s
  | .readback => s

/-- A frame's last byte has arrived (R51 to R53). -/
def State.receive (s : State) (bs : List Byte) : State :=
  let hunting := s.withLink s.link.hunt
  match judgeFrame s.control.id bs with
  | .rejected => s.withLink s.link.reject
  | .recallFrame k => hunting.withLink { hunting.link with lastHolder := k }
  | .windowFrame f => (hunting.acceptWindow f s.link.leadIn).finish

/-- A frame's last byte counts only in RECEIVING (log 28). -/
def State.frameReceived (s : State) (bs : List Byte) : State :=
  match s.link.rx with
  | .receiving => s.receive bs
  | .hunting => s
  | .readback => s

/-- OWN_WINDOW_START (R43, R44). -/
def execOwnWindowStart (s : State) : Host.Outcome State Fault Refusal :=
  .next (s.whenRunning State.ownWindow)

/-- WINDOW_FRAME_SENT (R45). -/
def execWindowFrameSent (s : State) : Host.Outcome State Fault Refusal :=
  .next (s.whenRunning State.ownFrameSent)

/-- WINDOW_FRAME_ABORTED (R46). -/
def execWindowFrameAborted (read : List LineLevel) (s : State) : Host.Outcome State Fault Refusal :=
  .next (s.whenRunning fun s => s.ownFrameAborted read)

/-- RECALL_WINDOW_START (R47, R149, R152). -/
def execRecallWindowStart (s : State) : Host.Outcome State Fault Refusal :=
  .next (s.whenRunning State.recallWindow)

/-- RECALL_FRAME_SENT (R47, R150). -/
def execRecallFrameSent (s : State) : Host.Outcome State Fault Refusal :=
  .next (s.whenRunning State.recallFrameSent)

/-- RECALL_FRAME_ABORTED (R48, R151). -/
def execRecallFrameAborted (read : List LineLevel) (s : State) : Host.Outcome State Fault Refusal :=
  .next (s.whenRunning fun s => s.recallFrameAborted read)

/-- LEAD_IN_FOUND (R50). -/
def execLeadInFound (wait ago : Nat) (s : State) : Host.Outcome State Fault Refusal :=
  .next ((s.countsPass wait).whenRunning fun s => s.leadInFound ago)

/-- FRAME_HEADER_RECEIVED (R51). -/
def execFrameHeaderReceived (header : List Byte) (s : State) : Host.Outcome State Fault Refusal :=
  .next (s.whenRunning fun s => s.headerReceived header)

/-- FRAME_CUT_BY_SILENCE (R51). -/
def execFrameCutBySilence (s : State) : Host.Outcome State Fault Refusal :=
  .next (s.whenRunning State.frameCut)

/-- FRAME_RECEIVED (R51 to R53). -/
def execFrameReceived (frame : List Byte) (s : State) : Host.Outcome State Fault Refusal :=
  .next (s.whenRunning fun s => s.frameReceived frame)

end Sys2Proof.Machine
end

