-- ==== Sys2Proof/Machine/RequestCommands.lean ====
section
/-! DEFINITION. The commands that stand for one item of an accepted frame (log 2): span items and
beacons (R89 to R94), and the eight requests (R171). -/

namespace Sys2Proof.Machine

/-- An OPEN item of another peer. -/
def State.openItem (s : State) (sender : StationId) (i : SpanItem) : State :=
  if s.hears sender = true ∧ i.isOpen = true then (s.applyOpen sender i).settleNotices else s

/-- A CLOSE item of another peer. -/
def State.closeItem (s : State) (sender : StationId) (i : SpanItem) : State :=
  if s.hears sender = true ∧ i.isOpen = false then (s.applyClose sender i).settleNotices else s

/-- A beacon's OPEN entries, from another peer. -/
def State.spanBeacon (s : State) (sender : StationId) (entries : List SpanItem) : State :=
  if s.hears sender then (s.applyBeacon sender (entries.filter SpanItem.isOpen)).settleNotices else s

/-- OPEN_ITEM (R91). -/
def execOpenItem (sender : StationId) (item : SpanItem) (s : State) :
    Host.Outcome State Fault Refusal :=
  .next (s.whenRunning fun s => s.openItem sender item)

/-- CLOSE_ITEM (R92, R94). -/
def execCloseItem (sender : StationId) (item : SpanItem) (s : State) :
    Host.Outcome State Fault Refusal :=
  .next (s.whenRunning fun s => s.closeItem sender item)

/-- SPAN_BEACON (R93). -/
def execSpanBeacon (sender : StationId) (entries : List SpanItem) (s : State) :
    Host.Outcome State Fault Refusal :=
  .next (s.whenRunning fun s => s.spanBeacon sender entries)

/-- CHARTER (R167). -/
def execCharter (sender : StationId) (body : List Byte) (s : State) :
    Host.Outcome State Fault Refusal :=
  .next (s.whenRunning fun s => (s.takeCharter sender body).settleNotices)

/-- CONDITION (R170). -/
def execCondition (sender : StationId) (code : Byte) (s : State) :
    Host.Outcome State Fault Refusal :=
  .next (s.whenRunning fun s => s.takeCondition sender code)

/-- TIME_MARK (R16). -/
def execTimeMark (sender : StationId) (slice : Slice) (day : Half) (ms : Word) (s : State) :
    Host.Outcome State Fault Refusal :=
  .next (s.whenRunning fun s => s.takeTimeMark sender slice day ms)

/-- PROBE (R172). -/
def execProbe (sender : StationId) (target : Byte) (value : Half) (s : State) :
    Host.Outcome State Fault Refusal :=
  .next (s.whenRunning fun s => (s.takeProbe sender target value).settleNotices)

/-- STOP (R164). -/
def execStop (sender : StationId) (target : Byte) (s : State) : Host.Outcome State Fault Refusal :=
  .next (s.whenRunning fun s => s.takeStop sender target)

/-- START (R165). -/
def execStart (sender : StationId) (target : Byte) (s : State) : Host.Outcome State Fault Refusal :=
  .next (s.whenRunning fun s => s.takeStart sender target)

/-- ARCHIVE_MARK (R107). -/
def execArchiveMark (sender : StationId) (pairs : List (Byte × Slice)) (s : State) :
    Host.Outcome State Fault Refusal :=
  .next (s.whenRunning fun s => s.takeArchiveMark sender pairs)

/-- RECALL (R140). -/
def execRecall (sender : StationId) (tag : Half) (holder source mask : Byte) (first last : Slice)
    (s : State) : Host.Outcome State Fault Refusal :=
  .next (s.whenRunning fun s =>
    (s.takeRecallRequest sender tag holder source mask first last).finish)

end Sys2Proof.Machine
end

