-- ==== Sys2Proof/Machine/ResetCommands.lean ====
section
/-! DEFINITION. RESET_ASSERTED and RESET_RELEASED (R4, R25, R49, R58, R127, R139, R158, R159, R174). -/

namespace Sys2Proof.Machine

/-- Present lanes by the seat-count strap (R20): code 0 gives 8. The code has SCS0 as its least significant
bit (DESIGN CHOICE, log 44). -/
def strapLanes (scs : BitVec 3) : Nat := if scs = 0 then 8 else scs.toNat

/-- The ID strap's value, IDS0 the least significant pin (R158). -/
def strapId (ids : BitVec 4) : StationId := ids.toFin

/-- RESET_N is low: every block is discarded at once, and the station has no station state. The fields
hold their reset values and the straps' last values meanwhile (log 8). -/
def State.assertReset (s : State) : State :=
  State.fresh false s.stopN s.stWait s.control.id s.seat.laneCount s.control.sizeCode none s.freeUses
    s.pending

/-- RESET_N goes high: the straps are read, every block takes its reset values and the station enters
START. The store size code has SZS0 as its least significant bit (DESIGN CHOICE, log 44). -/
def State.releaseReset (s : State) (ids : BitVec 4) (scs : BitVec 3) (szs : BitVec 2) : State :=
  State.fresh true s.stopN s.stWait (strapId ids) (strapLanes scs) szs (some .start) s.freeUses
    s.pending

/-- RESET_ASSERTED. -/
def execResetAsserted (s : State) : Host.Outcome State Fault Refusal := .next s.assertReset

/-- RESET_RELEASED; without effect when RESET_N is already high (log 3). -/
def execResetReleased (ids : BitVec 4) (scs : BitVec 3) (szs : BitVec 2) (s : State) :
    Host.Outcome State Fault Refusal :=
  .next (if s.resetN then s else s.releaseReset ids scs szs)

end Sys2Proof.Machine
end

