-- ==== Sys2Proof/Machine/StoreCommands.lean ====
section
/-! DEFINITION. The commands of the store: the ST_WAIT line, the start-up's pause, refresh ticks, and
the ends of operations. A command whose event cannot occur in the store's present state has no effect
(log 3). -/

namespace Sys2Proof.Machine

/-- A page outside the store's P pages (R122): an address that does not exist. -/
def State.pageExists (s : State) (page : Nat) : Bool :=
  decide (page < storePages s.control.sizeCode)

/-- ST_WAIT_RAISED (R126). -/
def execStWaitRaised (s : State) : Host.Outcome State Fault Refusal := .next { s with stWait := true }

/-- ST_WAIT_RELEASED: an operation boundary, when RESET_N is high (R126, R123). -/
def execStWaitReleased (s : State) : Host.Outcome State Fault Refusal :=
  .next (({ s with stWait := false }).whenRunning State.finish)

/-- PAUSE_END (R128). -/
def execPauseEnd (s : State) : Host.Outcome State Fault Refusal :=
  .next (s.whenRunning fun s => s.pauseEnd.finish)

/-- REFRESH_TICK (R129, R130, R137). -/
def execRefreshTick (s : State) : Host.Outcome State Fault Refusal :=
  .next (s.whenRunning fun s => s.refreshTick.finish)

/-- REFRESH_END (R123, R128). -/
def execRefreshEnd (s : State) : Host.Outcome State Fault Refusal :=
  .next (s.whenRunning fun s => s.refreshEnd.finish)

/-- SLOT_WRITE_END (R124). -/
def execSlotWriteEnd (s : State) : Host.Outcome State Fault Refusal :=
  match s.store.op with
  | some (.writeSlot kind page lane bytes live) =>
    if s.pageExists page then
      .next (s.whenRunning fun s => (s.slotWritten kind page lane bytes live).finish)
    else .fault .outsideStore
  | some .refresh => .next s
  | some (.readSlot _ _) => .next s
  | none => .next s

/-- SLOT_READ_END (R125). -/
def execSlotReadEnd (damage : List (Fin 512 × Byte)) (s : State) :
    Host.Outcome State Fault Refusal :=
  match s.store.op with
  | some (.readSlot c page) =>
    if s.pageExists page then .next (s.whenRunning fun s => (s.slotFetched c page damage).finish)
    else .fault .outsideStore
  | some .refresh => .next s
  | some (.writeSlot _ _ _ _ _) => .next s
  | none => .next s

end Sys2Proof.Machine
end

