-- ==== Sys2Proof/Machine/Dispatch.lean ====
section
/-! DEFINITION. The meaning of every command. -/

namespace Sys2Proof.Machine

def exec (i : Instr) (s : State) : Host.Outcome State Fault Refusal :=
  match i with
  | .resetAsserted => Sys2Proof.Machine.execResetAsserted s
  | .resetReleased ids scs szs => Sys2Proof.Machine.execResetReleased ids scs szs s
  | .samplePeriodEnd lines => Sys2Proof.Machine.execSamplePeriodEnd lines s
  | .sliceBoundary stopN => Sys2Proof.Machine.execSliceBoundary stopN s
  | .stepBoundary stopN => Sys2Proof.Machine.execStepBoundary stopN s
  | .peerLost => Sys2Proof.Machine.execPeerLost s
  | .orphanTimeout => Sys2Proof.Machine.execOrphanTimeout s
  | .listenEnd stopN => Sys2Proof.Machine.execListenEnd stopN s
  | .ownWindowStart => Sys2Proof.Machine.execOwnWindowStart s
  | .windowFrameSent => Sys2Proof.Machine.execWindowFrameSent s
  | .windowFrameAborted read => Sys2Proof.Machine.execWindowFrameAborted read s
  | .recallWindowStart => Sys2Proof.Machine.execRecallWindowStart s
  | .recallFrameSent => Sys2Proof.Machine.execRecallFrameSent s
  | .recallFrameAborted read => Sys2Proof.Machine.execRecallFrameAborted read s
  | .leadInFound wait ago => Sys2Proof.Machine.execLeadInFound wait ago s
  | .frameHeaderReceived header => Sys2Proof.Machine.execFrameHeaderReceived header s
  | .frameCutBySilence => Sys2Proof.Machine.execFrameCutBySilence s
  | .frameReceived frame => Sys2Proof.Machine.execFrameReceived frame s
  | .openItem sender item => Sys2Proof.Machine.execOpenItem sender item s
  | .closeItem sender item => Sys2Proof.Machine.execCloseItem sender item s
  | .spanBeacon sender entries => Sys2Proof.Machine.execSpanBeacon sender entries s
  | .charter sender body => Sys2Proof.Machine.execCharter sender body s
  | .condition sender code => Sys2Proof.Machine.execCondition sender code s
  | .timeMark sender slice day ms => Sys2Proof.Machine.execTimeMark sender slice day ms s
  | .probe sender target value => Sys2Proof.Machine.execProbe sender target value s
  | .stop sender target => Sys2Proof.Machine.execStop sender target s
  | .start sender target => Sys2Proof.Machine.execStart sender target s
  | .archiveMark sender pairs => Sys2Proof.Machine.execArchiveMark sender pairs s
  | .recallRequest sender tag holder source mask first last => Sys2Proof.Machine.execRecall sender tag holder source mask first last s
  | .stWaitRaised => Sys2Proof.Machine.execStWaitRaised s
  | .stWaitReleased => Sys2Proof.Machine.execStWaitReleased s
  | .pauseEnd => Sys2Proof.Machine.execPauseEnd s
  | .refreshTick => Sys2Proof.Machine.execRefreshTick s
  | .refreshEnd => Sys2Proof.Machine.execRefreshEnd s
  | .slotWriteEnd => Sys2Proof.Machine.execSlotWriteEnd s
  | .slotReadEnd damage => Sys2Proof.Machine.execSlotReadEnd damage s

end Sys2Proof.Machine
end

