-- ==== Sys2Proof/Laws/LineCode.lean ====
section
/-! SUPPORT. The line code: what the readback compare answers, and how long a row of half-cells is. -/

namespace Sys2Proof.Machine

@[simp] theorem driveBits_length (x : LineLevel) (bits : List Bool) :
    (driveBits x bits).length = 2 * bits.length := by
  induction bits generalizing x with
  | nil => rfl
  | cons b bs ih => simp only [driveBits, List.length_cons, ih]; omega

@[simp] theorem byteBits_length (b : Byte) : (byteBits b).length = 8 := by
  rw [byteBits, List.length_map, List.length_range]

theorem changed_ne (x : LineLevel) : changed x ≠ x := by cases x <;> decide

theorem changed_driven (x : LineLevel) : changed x ≠ .zero := by cases x <;> decide

theorem mixed_comm (a b : LineLevel) : mixed a b = mixed b a := by cases a <;> cases b <;> rfl

/-- The compare finds no mismatch exactly where the rows agree as far as both reach. -/
theorem mismatchFrom_eq_none (n : Nat) (ds rs : List LineLevel) :
    mismatchFrom n ds rs = none ↔
      ∀ (i : Nat) (d r : LineLevel), ds[i]? = some d → rs[i]? = some r → d = r := by
  induction ds generalizing n rs with
  | nil => simp [mismatchFrom]
  | cons d ds ih =>
    cases rs with
    | nil => simp [mismatchFrom]
    | cons r rs =>
      by_cases same : d = r
      · rw [mismatchFrom, if_pos same, ih]
        constructor
        · intro h i
          cases i with
          | zero => simpa using same
          | succ i => simpa using h i
        · intro h i
          simpa using h (i + 1)
      · rw [mismatchFrom, if_neg same]
        exact ⟨(fun h => nomatch h), fun h => absurd (h 0 d r rfl rfl) same⟩

/-- The compare answers the first half-cell in which the rows differ. -/
theorem mismatchFrom_eq (n : Nat) (ds rs : List LineLevel) (i : Nat) (d r : LineLevel)
    (hd : ds[i]? = some d) (hr : rs[i]? = some r) (differ : d ≠ r)
    (agree : ∀ j : Nat, j < i → ds[j]? = rs[j]?) : mismatchFrom n ds rs = some (n + i) := by
  induction i generalizing n ds rs with
  | zero =>
    cases ds with
    | nil => simp at hd
    | cons x ds =>
      cases rs with
      | nil => simp at hr
      | cons y rs =>
        simp only [List.getElem?_cons_zero, Option.some.injEq] at hd hr
        rw [mismatchFrom, if_neg (by rw [hd, hr]; exact differ)]
        rfl
  | succ i ih =>
    cases ds with
    | nil => simp at hd
    | cons x ds =>
      cases rs with
      | nil => simp at hr
      | cons y rs =>
        have first : x = y := by simpa using agree 0 (Nat.succ_pos i)
        rw [mismatchFrom, if_pos first,
          ih (n + 1) ds rs (by simpa using hd) (by simpa using hr)
            fun j h => by simpa using agree (j + 1) (Nat.succ_lt_succ h)]
        congr 1
        omega

end Sys2Proof.Machine
end

