-- ==== Sys2Proof/Safety.lean ====
section
/-! DEFINITION. What the statements call a state within its bounds: the ranges that the state tables of
the chapters give their fields, the places of the store, and the canonical form of the DRAM. -/

namespace Sys2Proof.Machine

/-- The clock's ranges (table of chapter 1, R2). -/
def Clock.inRange (c : Clock) : Bool :=
  decide (-40 ≤ c.trim ∧ c.trim ≤ 40 ∧ -40 ≤ c.applied ∧ c.applied ≤ 40 ∧ c.samplePos ≤ 159
    ∧ c.divider ≤ 1500 ∧ c.goodRun ≤ 8 ∧ c.badRun ≤ 4)

/-- An accumulator's ranges (R21). -/
def Accumulator.inRange (a : Accumulator) : Bool :=
  decide (a.samples.length ≤ 160 ∧ a.missing ≤ a.samples.length ∧ a.largest ≤ 32768)

/-- A lane's fault ranges (table of chapter 2). -/
def LaneFault.inRange (f : LaneFault) : Bool :=
  decide (f.deadRun ≤ 10 ∧ f.liveRun ≤ 100 ∧ f.length ≤ 65535)

/-- Seat capture's ranges. -/
def SeatCapture.inRange (x : SeatCapture) : Bool :=
  allLanes.all fun l => (look x.accs l).inRange && (look x.faults l).inRange

/-- A detector's counts: below N_onset and N_hang, which R166 bounds (5.1). -/
def Detector.inRange : Detector → Bool
  | .onset n _ => decide (n ≤ 16)
  | .hang n _ _ => decide (n ≤ 500)
  | .active _ _ => true
  | .disabled => true
  | .quiet => true
  | .faulted => true

/-- An entry's orphan count: below orphan_slices, which R166 bounds (R96). -/
def SpanEntry.inRange (e : SpanEntry) : Bool :=
  match e.status with
  | .orphaned n _ => decide (n ≤ 1000)
  | .opened => true
  | .closed _ _ => true

/-- The span blocks' ranges (5.1, R82, R88, R96, R98). -/
def Spans.inRange (x : Spans) : Bool :=
  decide (x.table.length ≤ 160 ∧ x.outbox.length ≤ 64 ∧ x.custody.length ≤ 4)
    && (allLanes.all fun l => (look x.detectors l).inRange) && x.table.all SpanEntry.inRange

/-- A roster entry's silence count: at most loss_slices, which R166 bounds, while PRESENT, and one more
when it has gone LOST (R64). -/
def RosterEntry.inRange (e : RosterEntry) : Bool :=
  decide (e.silence ≤ 201 ∧ (e.state = .present → e.silence ≤ 200))

/-- The roster's ranges; the own entry is not kept in the table (R59). -/
def Roster.inRange (r : Roster) (id : StationId) : Bool :=
  decide ((look r.entries id).state ≠ .present) && allIds.all fun k => (look r.entries k).inRange

/-- The store controller's ranges (table of chapter 7, R130, R134 to R136). -/
def Store.inRange (x : Store) : Bool :=
  decide (x.pauseTime ≤ 4800 ∧ x.initDone ≤ 8 ∧ x.debt ≤ 8 ∧ x.peak ≤ 8 ∧ x.capture.length ≤ 2
    ∧ x.mirror.length ≤ 2 ∧ x.reinits ≤ 65535)

/-- The recall service's ranges (table of chapter 8, R143, R144): the read buffer keeps to its 19,940
bytes, and a claim presented, or a read in flight whose outcome will be used, has room for its item; the
two do not stand together. -/
def Recall.inRange (r : Recall) : Bool :=
  let used := (r.buffer.map fun i => i.item.size).sum
  decide (r.queue.length ≤ 8 ∧ used ≤ 19940
    ∧ (r.claim.isSome = true → r.readLive = false ∧ used + 336 ≤ 19940)
    ∧ (r.readLive = true → used + 336 ≤ 19940))

/-- The charter ranges that bound counts of the station (R166). -/
def Charter.inRange (c : Charter) : Bool :=
  decide (c.mirrorShare ≤ 4 ∧ c.lossSlices ≤ 200 ∧ c.orphanSlices ≤ 1000 ∧ c.nOnset ≤ 16
    ∧ c.nHang ≤ 500)

/-- The pending charter, if any, is in range. -/
def Control.pendingInRange (c : Control) : Bool :=
  match c.pendingCharter with
  | none => true
  | some p => p.charter.inRange

/-- The station controller's ranges (table of chapter 9, R161, R166). -/
def Control.inRange (c : Control) : Bool :=
  c.charter.inRange && c.pendingInRange
    && decide (c.listen ≤ 300 ∧ (c.mode = some .listen → c.listen < 300))

/-- The notice queue's ranges (table of chapter 10). -/
def NoticeQueue.inRange (q : NoticeQueue) : Bool :=
  decide (q.entries.length ≤ 64 ∧ q.dropped ≤ 255 ∧ q.droppedSince ≤ 255)

/-- The fields with a range are within it, in every block. -/
def State.inRange (s : State) : Bool :=
  s.clock.inRange && s.seat.inRange && s.roster.inRange s.control.id && s.spans.inRange
    && s.store.inRange && s.server.inRange && s.control.inRange && s.notices.inRange
    && decide (s.rings.runs.length ≤ 4)

/-- A ring's pages are at most its capacity, and their places and the next one lie within it (R102,
R103). -/
def Ring.inside (r : Ring) (capacity : Nat) : Bool :=
  decide (r.pages.length ≤ capacity ∧ (capacity = 0 ∨ r.nextPlace < capacity))
    && r.pages.all fun p => decide (p.place < capacity)

/-- A page write in progress goes to a place of its ring, which has room for the page (R103). -/
def PageWrite.inside (w : Option PageWrite) (r : Ring) (capacity : Nat) : Bool :=
  match w with
  | none => true
  | some x => decide (x.place < capacity ∧ r.pages.length < capacity)

/-- The operation in progress is on a page of the store's (R122). -/
def StoreOp.inside (op : Option StoreOp) (pages : Nat) : Bool :=
  match op with
  | none => true
  | some .refresh => true
  | some (.writeSlot _ page _ _ _) => decide (page < pages)
  | some (.readSlot _ page) => decide (page < pages)

/-- The mirror share in force, and that of a pending charter, are in range (R102, R166). -/
def Control.sharesInRange (c : Control) : Bool :=
  decide (c.charter.mirrorShare ≤ 4) &&
    match c.pendingCharter with
    | none => true
    | some p => decide (p.charter.mirrorShare ≤ 4)

/-- Every place of the rings, of the page writes and of the operation in progress lies inside the
store. -/
def State.placesInside (s : State) : Bool :=
  s.control.sharesInRange && s.rings.own.inside s.ownCap && s.rings.mirror.inside s.mirrorCap
    && PageWrite.inside s.store.captureWrite s.rings.own s.ownCap
    && PageWrite.inside s.store.mirrorWrite s.rings.mirror s.mirrorCap
    && StoreOp.inside s.store.op (storePages s.control.sizeCode)

/-- The DRAM is in canonical form. -/
def State.dramWf (s : State) : Bool := Memory.wf s.dram

end Sys2Proof.Machine
end

