-- ==== Sys2Proof/Laws/State.lean ====
section
/-! SUPPORT. What each replacement of one block's state reads as, field by field; true by `rfl`. -/

namespace Sys2Proof.Machine

/-! ### Passing counts (log 4) -/

theorem Clock.pass_succ (c : Clock) (n : Nat) : c.pass (n + 1) = (c.pass n).pass 1 := by
  simp only [Clock.pass]
  congr 1
  omega

theorem Store.pass_succ (x : Store) (n : Nat) : x.pass (n + 1) = (x.pass n).pass 1 := by
  simp only [Store.pass]
  congr 1
  split
  · omega
  · rfl

/-- Counts that pass together pass one by one, as on an empty queue. -/
theorem State.countsPass_succ (s : State) (n : Nat) :
    s.countsPass (n + 1) = (s.countsPass n).countsPass 1 := by
  cases h : s.resetN
  · simp only [State.countsPass, h, Bool.false_eq_true, if_false]
  · simp only [State.countsPass, h, if_true]
    rw [← Clock.pass_succ, ← Store.pass_succ]

/-! ### One block's state replaced -/

@[simp] theorem withClock_resetN (s : State) (x : Clock) : (s.withClock x).resetN = s.resetN := rfl
@[simp] theorem withClock_stopN (s : State) (x : Clock) : (s.withClock x).stopN = s.stopN := rfl
@[simp] theorem withClock_stWait (s : State) (x : Clock) : (s.withClock x).stWait = s.stWait := rfl
@[simp] theorem withClock_clock (s : State) (x : Clock) : (s.withClock x).clock = x := rfl
@[simp] theorem withClock_seat (s : State) (x : Clock) : (s.withClock x).seat = s.seat := rfl
@[simp] theorem withClock_link (s : State) (x : Clock) : (s.withClock x).link = s.link := rfl
@[simp] theorem withClock_roster (s : State) (x : Clock) : (s.withClock x).roster = s.roster := rfl
@[simp] theorem withClock_spans (s : State) (x : Clock) : (s.withClock x).spans = s.spans := rfl
@[simp] theorem withClock_rings (s : State) (x : Clock) : (s.withClock x).rings = s.rings := rfl
@[simp] theorem withClock_store (s : State) (x : Clock) : (s.withClock x).store = s.store := rfl
@[simp] theorem withClock_dram (s : State) (x : Clock) : (s.withClock x).dram = s.dram := rfl
@[simp] theorem withClock_server (s : State) (x : Clock) : (s.withClock x).server = s.server := rfl
@[simp] theorem withClock_control (s : State) (x : Clock) : (s.withClock x).control = s.control := rfl
@[simp] theorem withClock_notices (s : State) (x : Clock) : (s.withClock x).notices = s.notices := rfl
@[simp] theorem withClock_raised (s : State) (x : Clock) : (s.withClock x).raised = s.raised := rfl
@[simp] theorem withClock_freeUses (s : State) (x : Clock) : (s.withClock x).freeUses = s.freeUses := rfl
@[simp] theorem withClock_pending (s : State) (x : Clock) : (s.withClock x).pending = s.pending := rfl

@[simp] theorem withRings_resetN (s : State) (x : Rings) : (s.withRings x).resetN = s.resetN := rfl
@[simp] theorem withRings_stopN (s : State) (x : Rings) : (s.withRings x).stopN = s.stopN := rfl
@[simp] theorem withRings_stWait (s : State) (x : Rings) : (s.withRings x).stWait = s.stWait := rfl
@[simp] theorem withRings_clock (s : State) (x : Rings) : (s.withRings x).clock = s.clock := rfl
@[simp] theorem withRings_seat (s : State) (x : Rings) : (s.withRings x).seat = s.seat := rfl
@[simp] theorem withRings_link (s : State) (x : Rings) : (s.withRings x).link = s.link := rfl
@[simp] theorem withRings_roster (s : State) (x : Rings) : (s.withRings x).roster = s.roster := rfl
@[simp] theorem withRings_spans (s : State) (x : Rings) : (s.withRings x).spans = s.spans := rfl
@[simp] theorem withRings_rings (s : State) (x : Rings) : (s.withRings x).rings = x := rfl
@[simp] theorem withRings_store (s : State) (x : Rings) : (s.withRings x).store = s.store := rfl
@[simp] theorem withRings_dram (s : State) (x : Rings) : (s.withRings x).dram = s.dram := rfl
@[simp] theorem withRings_server (s : State) (x : Rings) : (s.withRings x).server = s.server := rfl
@[simp] theorem withRings_control (s : State) (x : Rings) : (s.withRings x).control = s.control := rfl
@[simp] theorem withRings_notices (s : State) (x : Rings) : (s.withRings x).notices = s.notices := rfl
@[simp] theorem withRings_raised (s : State) (x : Rings) : (s.withRings x).raised = s.raised := rfl
@[simp] theorem withRings_freeUses (s : State) (x : Rings) : (s.withRings x).freeUses = s.freeUses := rfl
@[simp] theorem withRings_pending (s : State) (x : Rings) : (s.withRings x).pending = s.pending := rfl

@[simp] theorem withSpans_resetN (s : State) (x : Spans) : (s.withSpans x).resetN = s.resetN := rfl
@[simp] theorem withSpans_stopN (s : State) (x : Spans) : (s.withSpans x).stopN = s.stopN := rfl
@[simp] theorem withSpans_stWait (s : State) (x : Spans) : (s.withSpans x).stWait = s.stWait := rfl
@[simp] theorem withSpans_clock (s : State) (x : Spans) : (s.withSpans x).clock = s.clock := rfl
@[simp] theorem withSpans_seat (s : State) (x : Spans) : (s.withSpans x).seat = s.seat := rfl
@[simp] theorem withSpans_link (s : State) (x : Spans) : (s.withSpans x).link = s.link := rfl
@[simp] theorem withSpans_roster (s : State) (x : Spans) : (s.withSpans x).roster = s.roster := rfl
@[simp] theorem withSpans_spans (s : State) (x : Spans) : (s.withSpans x).spans = x := rfl
@[simp] theorem withSpans_rings (s : State) (x : Spans) : (s.withSpans x).rings = s.rings := rfl
@[simp] theorem withSpans_store (s : State) (x : Spans) : (s.withSpans x).store = s.store := rfl
@[simp] theorem withSpans_dram (s : State) (x : Spans) : (s.withSpans x).dram = s.dram := rfl
@[simp] theorem withSpans_server (s : State) (x : Spans) : (s.withSpans x).server = s.server := rfl
@[simp] theorem withSpans_control (s : State) (x : Spans) : (s.withSpans x).control = s.control := rfl
@[simp] theorem withSpans_notices (s : State) (x : Spans) : (s.withSpans x).notices = s.notices := rfl
@[simp] theorem withSpans_raised (s : State) (x : Spans) : (s.withSpans x).raised = s.raised := rfl
@[simp] theorem withSpans_freeUses (s : State) (x : Spans) : (s.withSpans x).freeUses = s.freeUses := rfl
@[simp] theorem withSpans_pending (s : State) (x : Spans) : (s.withSpans x).pending = s.pending := rfl

@[simp] theorem withServer_resetN (s : State) (x : Recall) : (s.withServer x).resetN = s.resetN := rfl
@[simp] theorem withServer_stopN (s : State) (x : Recall) : (s.withServer x).stopN = s.stopN := rfl
@[simp] theorem withServer_stWait (s : State) (x : Recall) : (s.withServer x).stWait = s.stWait := rfl
@[simp] theorem withServer_clock (s : State) (x : Recall) : (s.withServer x).clock = s.clock := rfl
@[simp] theorem withServer_seat (s : State) (x : Recall) : (s.withServer x).seat = s.seat := rfl
@[simp] theorem withServer_link (s : State) (x : Recall) : (s.withServer x).link = s.link := rfl
@[simp] theorem withServer_roster (s : State) (x : Recall) : (s.withServer x).roster = s.roster := rfl
@[simp] theorem withServer_spans (s : State) (x : Recall) : (s.withServer x).spans = s.spans := rfl
@[simp] theorem withServer_rings (s : State) (x : Recall) : (s.withServer x).rings = s.rings := rfl
@[simp] theorem withServer_store (s : State) (x : Recall) : (s.withServer x).store = s.store := rfl
@[simp] theorem withServer_dram (s : State) (x : Recall) : (s.withServer x).dram = s.dram := rfl
@[simp] theorem withServer_server (s : State) (x : Recall) : (s.withServer x).server = x := rfl
@[simp] theorem withServer_control (s : State) (x : Recall) : (s.withServer x).control = s.control := rfl
@[simp] theorem withServer_notices (s : State) (x : Recall) : (s.withServer x).notices = s.notices := rfl
@[simp] theorem withServer_raised (s : State) (x : Recall) : (s.withServer x).raised = s.raised := rfl
@[simp] theorem withServer_freeUses (s : State) (x : Recall) : (s.withServer x).freeUses = s.freeUses := rfl
@[simp] theorem withServer_pending (s : State) (x : Recall) : (s.withServer x).pending = s.pending := rfl

@[simp] theorem withStore_resetN (s : State) (x : Store) : (s.withStore x).resetN = s.resetN := rfl
@[simp] theorem withStore_stopN (s : State) (x : Store) : (s.withStore x).stopN = s.stopN := rfl
@[simp] theorem withStore_stWait (s : State) (x : Store) : (s.withStore x).stWait = s.stWait := rfl
@[simp] theorem withStore_clock (s : State) (x : Store) : (s.withStore x).clock = s.clock := rfl
@[simp] theorem withStore_seat (s : State) (x : Store) : (s.withStore x).seat = s.seat := rfl
@[simp] theorem withStore_link (s : State) (x : Store) : (s.withStore x).link = s.link := rfl
@[simp] theorem withStore_roster (s : State) (x : Store) : (s.withStore x).roster = s.roster := rfl
@[simp] theorem withStore_spans (s : State) (x : Store) : (s.withStore x).spans = s.spans := rfl
@[simp] theorem withStore_rings (s : State) (x : Store) : (s.withStore x).rings = s.rings := rfl
@[simp] theorem withStore_store (s : State) (x : Store) : (s.withStore x).store = x := rfl
@[simp] theorem withStore_dram (s : State) (x : Store) : (s.withStore x).dram = s.dram := rfl
@[simp] theorem withStore_server (s : State) (x : Store) : (s.withStore x).server = s.server := rfl
@[simp] theorem withStore_control (s : State) (x : Store) : (s.withStore x).control = s.control := rfl
@[simp] theorem withStore_notices (s : State) (x : Store) : (s.withStore x).notices = s.notices := rfl
@[simp] theorem withStore_raised (s : State) (x : Store) : (s.withStore x).raised = s.raised := rfl
@[simp] theorem withStore_freeUses (s : State) (x : Store) : (s.withStore x).freeUses = s.freeUses := rfl
@[simp] theorem withStore_pending (s : State) (x : Store) : (s.withStore x).pending = s.pending := rfl

@[simp] theorem withRoster_resetN (s : State) (x : Roster) : (s.withRoster x).resetN = s.resetN := rfl
@[simp] theorem withRoster_stopN (s : State) (x : Roster) : (s.withRoster x).stopN = s.stopN := rfl
@[simp] theorem withRoster_stWait (s : State) (x : Roster) : (s.withRoster x).stWait = s.stWait := rfl
@[simp] theorem withRoster_clock (s : State) (x : Roster) : (s.withRoster x).clock = s.clock := rfl
@[simp] theorem withRoster_seat (s : State) (x : Roster) : (s.withRoster x).seat = s.seat := rfl
@[simp] theorem withRoster_link (s : State) (x : Roster) : (s.withRoster x).link = s.link := rfl
@[simp] theorem withRoster_roster (s : State) (x : Roster) : (s.withRoster x).roster = x := rfl
@[simp] theorem withRoster_spans (s : State) (x : Roster) : (s.withRoster x).spans = s.spans := rfl
@[simp] theorem withRoster_rings (s : State) (x : Roster) : (s.withRoster x).rings = s.rings := rfl
@[simp] theorem withRoster_store (s : State) (x : Roster) : (s.withRoster x).store = s.store := rfl
@[simp] theorem withRoster_dram (s : State) (x : Roster) : (s.withRoster x).dram = s.dram := rfl
@[simp] theorem withRoster_server (s : State) (x : Roster) : (s.withRoster x).server = s.server := rfl
@[simp] theorem withRoster_control (s : State) (x : Roster) : (s.withRoster x).control = s.control := rfl
@[simp] theorem withRoster_notices (s : State) (x : Roster) : (s.withRoster x).notices = s.notices := rfl
@[simp] theorem withRoster_raised (s : State) (x : Roster) : (s.withRoster x).raised = s.raised := rfl
@[simp] theorem withRoster_freeUses (s : State) (x : Roster) : (s.withRoster x).freeUses = s.freeUses := rfl
@[simp] theorem withRoster_pending (s : State) (x : Roster) : (s.withRoster x).pending = s.pending := rfl

@[simp] theorem withControl_resetN (s : State) (x : Control) : (s.withControl x).resetN = s.resetN := rfl
@[simp] theorem withControl_stopN (s : State) (x : Control) : (s.withControl x).stopN = s.stopN := rfl
@[simp] theorem withControl_stWait (s : State) (x : Control) : (s.withControl x).stWait = s.stWait := rfl
@[simp] theorem withControl_clock (s : State) (x : Control) : (s.withControl x).clock = s.clock := rfl
@[simp] theorem withControl_seat (s : State) (x : Control) : (s.withControl x).seat = s.seat := rfl
@[simp] theorem withControl_link (s : State) (x : Control) : (s.withControl x).link = s.link := rfl
@[simp] theorem withControl_roster (s : State) (x : Control) : (s.withControl x).roster = s.roster := rfl
@[simp] theorem withControl_spans (s : State) (x : Control) : (s.withControl x).spans = s.spans := rfl
@[simp] theorem withControl_rings (s : State) (x : Control) : (s.withControl x).rings = s.rings := rfl
@[simp] theorem withControl_store (s : State) (x : Control) : (s.withControl x).store = s.store := rfl
@[simp] theorem withControl_dram (s : State) (x : Control) : (s.withControl x).dram = s.dram := rfl
@[simp] theorem withControl_server (s : State) (x : Control) : (s.withControl x).server = s.server := rfl
@[simp] theorem withControl_control (s : State) (x : Control) : (s.withControl x).control = x := rfl
@[simp] theorem withControl_notices (s : State) (x : Control) : (s.withControl x).notices = s.notices := rfl
@[simp] theorem withControl_raised (s : State) (x : Control) : (s.withControl x).raised = s.raised := rfl
@[simp] theorem withControl_freeUses (s : State) (x : Control) : (s.withControl x).freeUses = s.freeUses := rfl
@[simp] theorem withControl_pending (s : State) (x : Control) : (s.withControl x).pending = s.pending := rfl

@[simp] theorem withLink_resetN (s : State) (x : Link) : (s.withLink x).resetN = s.resetN := rfl
@[simp] theorem withLink_stopN (s : State) (x : Link) : (s.withLink x).stopN = s.stopN := rfl
@[simp] theorem withLink_stWait (s : State) (x : Link) : (s.withLink x).stWait = s.stWait := rfl
@[simp] theorem withLink_clock (s : State) (x : Link) : (s.withLink x).clock = s.clock := rfl
@[simp] theorem withLink_seat (s : State) (x : Link) : (s.withLink x).seat = s.seat := rfl
@[simp] theorem withLink_link (s : State) (x : Link) : (s.withLink x).link = x := rfl
@[simp] theorem withLink_roster (s : State) (x : Link) : (s.withLink x).roster = s.roster := rfl
@[simp] theorem withLink_spans (s : State) (x : Link) : (s.withLink x).spans = s.spans := rfl
@[simp] theorem withLink_rings (s : State) (x : Link) : (s.withLink x).rings = s.rings := rfl
@[simp] theorem withLink_store (s : State) (x : Link) : (s.withLink x).store = s.store := rfl
@[simp] theorem withLink_dram (s : State) (x : Link) : (s.withLink x).dram = s.dram := rfl
@[simp] theorem withLink_server (s : State) (x : Link) : (s.withLink x).server = s.server := rfl
@[simp] theorem withLink_control (s : State) (x : Link) : (s.withLink x).control = s.control := rfl
@[simp] theorem withLink_notices (s : State) (x : Link) : (s.withLink x).notices = s.notices := rfl
@[simp] theorem withLink_raised (s : State) (x : Link) : (s.withLink x).raised = s.raised := rfl
@[simp] theorem withLink_freeUses (s : State) (x : Link) : (s.withLink x).freeUses = s.freeUses := rfl
@[simp] theorem withLink_pending (s : State) (x : Link) : (s.withLink x).pending = s.pending := rfl

@[simp] theorem withSeat_resetN (s : State) (x : SeatCapture) : (s.withSeat x).resetN = s.resetN := rfl
@[simp] theorem withSeat_stopN (s : State) (x : SeatCapture) : (s.withSeat x).stopN = s.stopN := rfl
@[simp] theorem withSeat_stWait (s : State) (x : SeatCapture) : (s.withSeat x).stWait = s.stWait := rfl
@[simp] theorem withSeat_clock (s : State) (x : SeatCapture) : (s.withSeat x).clock = s.clock := rfl
@[simp] theorem withSeat_seat (s : State) (x : SeatCapture) : (s.withSeat x).seat = x := rfl
@[simp] theorem withSeat_link (s : State) (x : SeatCapture) : (s.withSeat x).link = s.link := rfl
@[simp] theorem withSeat_roster (s : State) (x : SeatCapture) : (s.withSeat x).roster = s.roster := rfl
@[simp] theorem withSeat_spans (s : State) (x : SeatCapture) : (s.withSeat x).spans = s.spans := rfl
@[simp] theorem withSeat_rings (s : State) (x : SeatCapture) : (s.withSeat x).rings = s.rings := rfl
@[simp] theorem withSeat_store (s : State) (x : SeatCapture) : (s.withSeat x).store = s.store := rfl
@[simp] theorem withSeat_dram (s : State) (x : SeatCapture) : (s.withSeat x).dram = s.dram := rfl
@[simp] theorem withSeat_server (s : State) (x : SeatCapture) : (s.withSeat x).server = s.server := rfl
@[simp] theorem withSeat_control (s : State) (x : SeatCapture) : (s.withSeat x).control = s.control := rfl
@[simp] theorem withSeat_notices (s : State) (x : SeatCapture) : (s.withSeat x).notices = s.notices := rfl
@[simp] theorem withSeat_raised (s : State) (x : SeatCapture) : (s.withSeat x).raised = s.raised := rfl
@[simp] theorem withSeat_freeUses (s : State) (x : SeatCapture) : (s.withSeat x).freeUses = s.freeUses := rfl
@[simp] theorem withSeat_pending (s : State) (x : SeatCapture) : (s.withSeat x).pending = s.pending := rfl

@[simp] theorem raise_resetN (s : State) (b : Raiser) (k : NoticeKind) (n : Nat) (d : Half) :
    (s.raise b k n d).resetN = s.resetN := rfl
@[simp] theorem raise_stopN (s : State) (b : Raiser) (k : NoticeKind) (n : Nat) (d : Half) :
    (s.raise b k n d).stopN = s.stopN := rfl
@[simp] theorem raise_stWait (s : State) (b : Raiser) (k : NoticeKind) (n : Nat) (d : Half) :
    (s.raise b k n d).stWait = s.stWait := rfl
@[simp] theorem raise_clock (s : State) (b : Raiser) (k : NoticeKind) (n : Nat) (d : Half) :
    (s.raise b k n d).clock = s.clock := rfl
@[simp] theorem raise_seat (s : State) (b : Raiser) (k : NoticeKind) (n : Nat) (d : Half) :
    (s.raise b k n d).seat = s.seat := rfl
@[simp] theorem raise_link (s : State) (b : Raiser) (k : NoticeKind) (n : Nat) (d : Half) :
    (s.raise b k n d).link = s.link := rfl
@[simp] theorem raise_roster (s : State) (b : Raiser) (k : NoticeKind) (n : Nat) (d : Half) :
    (s.raise b k n d).roster = s.roster := rfl
@[simp] theorem raise_spans (s : State) (b : Raiser) (k : NoticeKind) (n : Nat) (d : Half) :
    (s.raise b k n d).spans = s.spans := rfl
@[simp] theorem raise_rings (s : State) (b : Raiser) (k : NoticeKind) (n : Nat) (d : Half) :
    (s.raise b k n d).rings = s.rings := rfl
@[simp] theorem raise_store (s : State) (b : Raiser) (k : NoticeKind) (n : Nat) (d : Half) :
    (s.raise b k n d).store = s.store := rfl
@[simp] theorem raise_dram (s : State) (b : Raiser) (k : NoticeKind) (n : Nat) (d : Half) :
    (s.raise b k n d).dram = s.dram := rfl
@[simp] theorem raise_server (s : State) (b : Raiser) (k : NoticeKind) (n : Nat) (d : Half) :
    (s.raise b k n d).server = s.server := rfl
@[simp] theorem raise_control (s : State) (b : Raiser) (k : NoticeKind) (n : Nat) (d : Half) :
    (s.raise b k n d).control = s.control := rfl
@[simp] theorem raise_notices (s : State) (b : Raiser) (k : NoticeKind) (n : Nat) (d : Half) :
    (s.raise b k n d).notices = s.notices := rfl
@[simp] theorem raise_freeUses (s : State) (b : Raiser) (k : NoticeKind) (n : Nat) (d : Half) :
    (s.raise b k n d).freeUses = s.freeUses := rfl
@[simp] theorem raise_pending (s : State) (b : Raiser) (k : NoticeKind) (n : Nat) (d : Half) :
    (s.raise b k n d).pending = s.pending := rfl

/-- The notice raised stands at the end of those raised in the step. -/
@[simp] theorem raise_raised (s : State) (b : Raiser) (k : NoticeKind) (n : Nat) (d : Half) :
    (s.raise b k n d).raised = s.raised ++
      [{ raiser := b, notice := { kind := k, slice := s.clock.index, subject := byte n, detail := d } }] :=
  rfl

@[simp] theorem settleNotices_resetN (s : State) : s.settleNotices.resetN = s.resetN := rfl
@[simp] theorem settleNotices_stopN (s : State) : s.settleNotices.stopN = s.stopN := rfl
@[simp] theorem settleNotices_stWait (s : State) : s.settleNotices.stWait = s.stWait := rfl
@[simp] theorem settleNotices_clock (s : State) : s.settleNotices.clock = s.clock := rfl
@[simp] theorem settleNotices_seat (s : State) : s.settleNotices.seat = s.seat := rfl
@[simp] theorem settleNotices_link (s : State) : s.settleNotices.link = s.link := rfl
@[simp] theorem settleNotices_roster (s : State) : s.settleNotices.roster = s.roster := rfl
@[simp] theorem settleNotices_spans (s : State) : s.settleNotices.spans = s.spans := rfl
@[simp] theorem settleNotices_rings (s : State) : s.settleNotices.rings = s.rings := rfl
@[simp] theorem settleNotices_store (s : State) : s.settleNotices.store = s.store := rfl
@[simp] theorem settleNotices_dram (s : State) : s.settleNotices.dram = s.dram := rfl
@[simp] theorem settleNotices_server (s : State) : s.settleNotices.server = s.server := rfl
@[simp] theorem settleNotices_control (s : State) : s.settleNotices.control = s.control := rfl
@[simp] theorem settleNotices_pending (s : State) : s.settleNotices.pending = s.pending := rfl
@[simp] theorem settleNotices_raised (s : State) : s.settleNotices.raised = [] := rfl

@[simp] theorem setDetector_resetN (s : State) (l : Lane) (d : Detector) :
    (s.setDetector l d).resetN = s.resetN := rfl
@[simp] theorem setDetector_stopN (s : State) (l : Lane) (d : Detector) :
    (s.setDetector l d).stopN = s.stopN := rfl
@[simp] theorem setDetector_stWait (s : State) (l : Lane) (d : Detector) :
    (s.setDetector l d).stWait = s.stWait := rfl
@[simp] theorem setDetector_clock (s : State) (l : Lane) (d : Detector) :
    (s.setDetector l d).clock = s.clock := rfl
@[simp] theorem setDetector_seat (s : State) (l : Lane) (d : Detector) :
    (s.setDetector l d).seat = s.seat := rfl
@[simp] theorem setDetector_link (s : State) (l : Lane) (d : Detector) :
    (s.setDetector l d).link = s.link := rfl
@[simp] theorem setDetector_roster (s : State) (l : Lane) (d : Detector) :
    (s.setDetector l d).roster = s.roster := rfl
@[simp] theorem setDetector_spans (s : State) (l : Lane) (d : Detector) :
    (s.setDetector l d).spans = { s.spans with detectors := put s.spans.detectors l d } := rfl
@[simp] theorem setDetector_rings (s : State) (l : Lane) (d : Detector) :
    (s.setDetector l d).rings = s.rings := rfl
@[simp] theorem setDetector_store (s : State) (l : Lane) (d : Detector) :
    (s.setDetector l d).store = s.store := rfl
@[simp] theorem setDetector_dram (s : State) (l : Lane) (d : Detector) :
    (s.setDetector l d).dram = s.dram := rfl
@[simp] theorem setDetector_server (s : State) (l : Lane) (d : Detector) :
    (s.setDetector l d).server = s.server := rfl
@[simp] theorem setDetector_control (s : State) (l : Lane) (d : Detector) :
    (s.setDetector l d).control = s.control := rfl
@[simp] theorem setDetector_notices (s : State) (l : Lane) (d : Detector) :
    (s.setDetector l d).notices = s.notices := rfl
@[simp] theorem setDetector_raised (s : State) (l : Lane) (d : Detector) :
    (s.setDetector l d).raised = s.raised := rfl
@[simp] theorem setDetector_freeUses (s : State) (l : Lane) (d : Detector) :
    (s.setDetector l d).freeUses = s.freeUses := rfl
@[simp] theorem setDetector_pending (s : State) (l : Lane) (d : Detector) :
    (s.setDetector l d).pending = s.pending := rfl

end Sys2Proof.Machine
end

