-- ==== Sys2Proof/Laws/Frames.lean ====
section
/-! SUPPORT. One lemma for each shared operation: everything it can change. Each says that the state
after it is the state before with only the named fields replaced, so a proof reads every other field
off by `obtain` and `rw`. -/

namespace Sys2Proof.Machine

/-! ### Frames as relations -/

/-- Only the rings and the raised notices differ. -/
def OnlyRings (s t : State) : Prop := ∃ a r, t = { s with rings := a, raised := r }

/-- Only the span blocks and the raised notices differ. -/
def OnlySpans (s t : State) : Prop := ∃ a r, t = { s with spans := a, raised := r }

/-- Only the recall service differs. -/
def OnlyServer (s t : State) : Prop := ∃ a, t = { s with server := a }

/-- Only the store controller and the raised notices differ. -/
def OnlyStore (s t : State) : Prop := ∃ a r, t = { s with store := a, raised := r }

/-- Only the rings, the store controller, the recall service and the raised notices differ. -/
def OnlyStorage (s t : State) : Prop :=
  ∃ a b c r, t = { s with rings := a, store := b, server := c, raised := r }

theorem OnlyRings.refl (s : State) : OnlyRings s s := ⟨_, _, rfl⟩
theorem OnlySpans.refl (s : State) : OnlySpans s s := ⟨_, _, rfl⟩
theorem OnlyServer.refl (s : State) : OnlyServer s s := ⟨_, rfl⟩
theorem OnlyStore.refl (s : State) : OnlyStore s s := ⟨_, _, rfl⟩
theorem OnlyStorage.refl (s : State) : OnlyStorage s s := ⟨_, _, _, _, rfl⟩

theorem OnlyRings.trans {s t u : State} : OnlyRings s t → OnlyRings t u → OnlyRings s u := by
  rintro ⟨a, r, rfl⟩ ⟨b, r', rfl⟩; exact ⟨_, _, rfl⟩
theorem OnlySpans.trans {s t u : State} : OnlySpans s t → OnlySpans t u → OnlySpans s u := by
  rintro ⟨a, r, rfl⟩ ⟨b, r', rfl⟩; exact ⟨_, _, rfl⟩
theorem OnlyServer.trans {s t u : State} : OnlyServer s t → OnlyServer t u → OnlyServer s u := by
  rintro ⟨a, rfl⟩ ⟨b, rfl⟩; exact ⟨_, rfl⟩
theorem OnlyStore.trans {s t u : State} : OnlyStore s t → OnlyStore t u → OnlyStore s u := by
  rintro ⟨a, r, rfl⟩ ⟨b, r', rfl⟩; exact ⟨_, _, rfl⟩
theorem OnlyStorage.trans {s t u : State} :
    OnlyStorage s t → OnlyStorage t u → OnlyStorage s u := by
  rintro ⟨_, _, _, _, rfl⟩ ⟨_, _, _, _, rfl⟩; exact ⟨_, _, _, _, rfl⟩

theorem OnlyRings.storage {s t : State} : OnlyRings s t → OnlyStorage s t := by
  rintro ⟨_, _, rfl⟩; exact ⟨_, _, _, _, rfl⟩
theorem OnlyServer.storage {s t : State} : OnlyServer s t → OnlyStorage s t := by
  rintro ⟨_, rfl⟩; exact ⟨_, _, _, _, rfl⟩
theorem OnlyStore.storage {s t : State} : OnlyStore s t → OnlyStorage s t := by
  rintro ⟨_, _, rfl⟩; exact ⟨_, _, _, _, rfl⟩

/-- A left fold keeps a reflexive and transitive frame that each of its steps keeps. -/
theorem foldl_frame {α : Type} {P : State → State → Prop} (refl : ∀ s, P s s)
    (trans : ∀ {s t u}, P s t → P t u → P s u) (f : State → α → State)
    (step : ∀ s a, P s (f s a)) (l : List α) (s : State) : P s (l.foldl f s) := by
  induction l generalizing s with
  | nil => exact refl s
  | cons a l ih => exact trans (step s a) (ih (f s a))

/-! ### Rings -/

theorem restartOwn_frame (s : State) (c : Half) : OnlyRings s (s.restartOwn c) := by
  unfold State.restartOwn; dsimp only; split <;> exact ⟨_, _, rfl⟩

theorem restartMirror_frame (s : State) (c : Half) : OnlyRings s (s.restartMirror c) := by
  unfold State.restartMirror; dsimp only; split <;> exact ⟨_, _, rfl⟩

theorem judge_frame (s : State) (p : PageRecord) : OnlyRings s (s.judge p) := by
  unfold State.judge
  split
  · dsimp only; split <;> exact ⟨_, _, rfl⟩
  · exact OnlyRings.refl s

theorem closeRun_frame (s : State) : OnlyRings s s.closeRun := ⟨_, _, rfl⟩

theorem makeRoomOwn_frame (s : State) : OnlyRings s s.makeRoomOwn := by
  unfold State.makeRoomOwn
  split
  · exact OnlyRings.refl s
  · split
    · exact OnlyRings.refl s
    · exact OnlyRings.trans ⟨_, _, rfl⟩ (judge_frame _ _)

theorem beginOwn_frame (s : State) (p : OwnPage) : OnlyRings s (s.beginOwn p) := by
  unfold State.beginOwn
  refine OnlyRings.trans ?_ (makeRoomOwn_frame _)
  split
  · exact OnlyRings.refl s
  · split
    · exact OnlyRings.refl s
    · exact restartOwn_frame s _

theorem completeOwn_frame (s : State) (p : OwnPage) (n : Nat) : OnlyRings s (s.completeOwn p n) :=
  ⟨_, _, rfl⟩

theorem handover_frame (s : State) : OnlyRings s s.handover := by
  unfold State.handover; split
  · exact OnlyRings.refl s
  · exact ⟨_, _, rfl⟩

theorem makeRoomMirror_frame (s : State) : OnlyRings s s.makeRoomMirror := by
  unfold State.makeRoomMirror
  split
  · exact OnlyRings.refl s
  · split
    · exact OnlyRings.refl s
    · exact OnlyRings.trans ⟨_, _, rfl⟩ (judge_frame _ _)

theorem beginMirror_frame (s : State) (p : MirrorPage) : OnlyRings s (s.beginMirror p) := by
  unfold State.beginMirror
  refine OnlyRings.trans ?_ (makeRoomMirror_frame _)
  split
  · exact OnlyRings.refl s
  · split
    · exact restartMirror_frame s _
    · split
      · split
        · exact restartMirror_frame s _
        · exact handover_frame s
      · exact OnlyRings.refl s

theorem giveUpOldestRun_frame (s : State) : OnlyRings s s.giveUpOldestRun := by
  unfold State.giveUpOldestRun
  split
  · exact OnlyRings.refl s
  · exact OnlyRings.trans ⟨_, _, rfl⟩
      (foldl_frame OnlyRings.refl OnlyRings.trans _ judge_frame _ _)

theorem completeMirror_frame (s : State) (p : MirrorPage) (n : Nat) :
    OnlyRings s (s.completeMirror p n) := by
  unfold State.completeMirror
  dsimp only
  split
  · exact ⟨_, _, rfl⟩
  · split
    · exact ⟨_, _, rfl⟩
    · exact OnlyRings.trans (giveUpOldestRun_frame s) ⟨_, _, rfl⟩

/-! ### Spans -/

theorem announce_frame (s : State) (i : SpanItem) : OnlySpans s (s.announce i) := by
  unfold State.announce
  split
  · exact ⟨_, _, rfl⟩
  · split <;> exact ⟨_, _, rfl⟩

theorem evict_frame (s : State) : OnlySpans s s.evict := by
  unfold State.evict
  split
  · exact ⟨_, _, rfl⟩
  · split
    · exact ⟨_, _, rfl⟩
    · exact OnlySpans.refl s

theorem insertEntry_frame (s : State) (e : SpanEntry) : OnlySpans s (s.insertEntry e) := by
  have h : OnlySpans s (if s.spans.table.length < Config.spanCapacity then s else s.evict) := by
    split
    · exact OnlySpans.refl s
    · exact evict_frame s
  unfold State.insertEntry
  refine OnlySpans.trans h ?_
  dsimp only
  generalize (if s.spans.table.length < Config.spanCapacity then s else s.evict) = u
  split
  · exact ⟨_, _, rfl⟩
  · exact OnlySpans.refl u

theorem setDetector_frame (s : State) (l : Lane) (d : Detector) : OnlySpans s (s.setDetector l d) :=
  ⟨_, _, rfl⟩

theorem openSpan_frame (s : State) (l : Lane) (t : Slice) (c : Condition) (b : Bool) :
    OnlySpans s (s.openSpan l t c b) :=
  OnlySpans.trans (insertEntry_frame _ _) (announce_frame _ _)

theorem tryOpen_frame (s : State) (l : Lane) (t : Slice) (c : Condition) (b : Bool) (u : Slice) :
    OnlySpans s (s.tryOpen l t c b u) := by
  unfold State.tryOpen
  split
  · exact setDetector_frame _ _ _
  · exact OnlySpans.trans (openSpan_frame _ _ _ _ _) (setDetector_frame _ _ _)

theorem closeOwn_frame (s : State) (k : SpanKey) (t : Slice) (c : CloseCause) :
    OnlySpans s (s.closeOwn k t c) := by
  unfold State.closeOwn
  split
  · exact OnlySpans.refl s
  · exact OnlySpans.trans ⟨_, _, rfl⟩ (announce_frame _ _)

theorem onsetAt_frame (s : State) (l : Lane) (b : Block) (n : Nat) (t : Slice) :
    OnlySpans s (s.onsetAt l b n t) := by
  unfold State.onsetAt
  split
  · exact tryOpen_frame _ _ _ _ _ _
  · exact setDetector_frame _ _ _

theorem hangAt_frame (s : State) (l : Lane) (n : Nat) (t : Slice) (k : SpanKey) :
    OnlySpans s (s.hangAt l n t k) := by
  unfold State.hangAt
  split
  · exact OnlySpans.trans (closeOwn_frame _ _ _ _) (setDetector_frame _ _ _)
  · exact setDetector_frame _ _ _

theorem evaluate_frame (s : State) (l : Lane) (b : Block) : OnlySpans s (s.evaluate l b) := by
  unfold State.evaluate
  split
  · exact OnlySpans.refl s
  · exact OnlySpans.refl s
  · split
    · exact onsetAt_frame _ _ _ _ _
    · exact OnlySpans.refl s
  · split
    · exact onsetAt_frame _ _ _ _ _
    · exact setDetector_frame _ _ _
  · split
    · exact setDetector_frame _ _ _
    · exact hangAt_frame _ _ _ _ _
  · split
    · exact setDetector_frame _ _ _
    · exact hangAt_frame _ _ _ _ _

theorem closeHeld_frame (s : State) (l : Lane) (c : CloseCause) : OnlySpans s (s.closeHeld l c) := by
  unfold State.closeHeld
  split <;> first | exact closeOwn_frame _ _ _ _ | exact OnlySpans.refl s

theorem faultChange_frame (s : State) (l : Lane) (c : FaultChange) :
    OnlySpans s (s.faultChange l c) := by
  unfold State.faultChange
  split
  · exact OnlySpans.refl s
  · split
    · exact OnlySpans.refl s
    · exact OnlySpans.trans (closeHeld_frame _ _ _) (setDetector_frame _ _ _)
  · split
    · exact setDetector_frame _ _ _
    · exact OnlySpans.refl s

theorem detectChange_frame (s : State) (l : Lane) (c : Charter) :
    OnlySpans s (s.detectChange l c) := by
  unfold State.detectChange
  dsimp only
  split
  · exact OnlySpans.trans (closeHeld_frame _ _ _) (setDetector_frame _ _ _)
  · split
    · exact setDetector_frame _ _ _
    · exact OnlySpans.refl s

theorem splitLane_frame (s : State) (l : Lane) (p : Split) : OnlySpans s (s.splitLane l p) := by
  unfold State.splitLane
  split
  · dsimp only
    split
    · exact OnlySpans.trans (closeOwn_frame _ _ _ _) (setDetector_frame _ _ _)
    · exact OnlySpans.trans (closeOwn_frame _ _ _ _) (tryOpen_frame _ _ _ _ _ _)
  · exact OnlySpans.trans (closeOwn_frame _ _ _ _) (setDetector_frame _ _ _)
  · exact setDetector_frame _ _ _
  · exact OnlySpans.refl s
  · exact OnlySpans.refl s
  · exact OnlySpans.refl s

theorem detectorLane_frame (s : State) (l : Lane) (b : Block) (c : FaultChange) (n : Option Charter)
    (p : Option Split) : OnlySpans s (s.detectorLane l b c n p) := by
  have h1 : OnlySpans s (if c = .none then s.evaluate l b else s.faultChange l c) := by
    split
    · exact evaluate_frame _ _ _
    · exact faultChange_frame _ _ _
  unfold State.detectorLane
  cases n with
  | none =>
    cases p with
    | none => exact h1
    | some p => exact OnlySpans.trans h1 (splitLane_frame _ _ _)
  | some n =>
    cases p with
    | none => exact OnlySpans.trans h1 (detectChange_frame _ _ _)
    | some p =>
      exact OnlySpans.trans (OnlySpans.trans h1 (detectChange_frame _ _ _)) (splitLane_frame _ _ _)

theorem detectOnly_frame (c : Option Charter) (s : State) (l : Lane) :
    OnlySpans s (State.detectOnly c s l) := by
  cases c with
  | none => exact OnlySpans.refl s
  | some c => exact detectChange_frame s l c

theorem settingsFrom_frame (s : State) (c : Charter) : OnlySpans s (s.settingsFrom c) :=
  foldl_frame OnlySpans.refl OnlySpans.trans _ (fun _ _ => setDetector_frame _ _ _) _ _

theorem insertOpen_frame (s : State) (k : StationId) (i : SpanItem) :
    OnlySpans s (s.insertOpen k i) := by
  unfold State.insertOpen
  split
  · exact insertEntry_frame _ _
  · split
    · exact OnlySpans.trans ⟨_, _, rfl⟩ (insertEntry_frame _ _)
    · exact OnlySpans.refl s

theorem applyOpen_frame (s : State) (k : StationId) (i : SpanItem) :
    OnlySpans s (s.applyOpen k i) := by
  unfold State.applyOpen
  split
  · split
    · exact OnlySpans.refl s
    · exact insertOpen_frame _ _ _
  · exact OnlySpans.refl s

theorem applyBeaconEntry_frame (s : State) (k : StationId) (i : SpanItem) :
    OnlySpans s (s.applyBeaconEntry k i) := by
  unfold State.applyBeaconEntry
  split
  · split
    · exact insertOpen_frame _ _ _
    · split
      · exact ⟨_, _, rfl⟩
      · exact OnlySpans.refl s
      · exact OnlySpans.refl s
  · exact OnlySpans.refl s

theorem applyBeacon_frame (s : State) (k : StationId) (es : List SpanItem) :
    OnlySpans s (s.applyBeacon k es) :=
  foldl_frame OnlySpans.refl OnlySpans.trans _ (fun s i => applyBeaconEntry_frame s k i) _ _

theorem reopenAfterCustody_frame (s : State) (e : SpanEntry) (t : Slice) :
    OnlySpans s (s.reopenAfterCustody e t) := by
  unfold State.reopenAfterCustody
  dsimp only
  split
  · split
    · exact tryOpen_frame _ _ _ _ _ _
    · exact OnlySpans.refl s
  · split
    · exact setDetector_frame _ _ _
    · exact OnlySpans.refl s
  all_goals exact OnlySpans.refl s

theorem applyClose_frame (s : State) (k : StationId) (i : SpanItem) :
    OnlySpans s (s.applyClose k i) := by
  unfold State.applyClose
  split
  · exact OnlySpans.refl s
  · split
    · exact insertEntry_frame _ _
    · split
      · dsimp only
        split
        · exact OnlySpans.trans ⟨_, _, rfl⟩ (reopenAfterCustody_frame _ _ _)
        · exact ⟨_, _, rfl⟩
      · exact OnlySpans.refl s

theorem applyItem_frame (s : State) (k : StationId) (i : SpanItem) :
    OnlySpans s (s.applyItem k i) := by
  unfold State.applyItem
  split
  · exact applyOpen_frame _ _ _
  · exact applyClose_frame _ _ _

theorem lossReport_frame (s : State) (k : StationId) (t : Option Slice) :
    OnlySpans s (s.lossReport k t) := ⟨_, _, rfl⟩

theorem custodyClose_frame (s : State) (e : SpanEntry) (t : Slice) :
    OnlySpans s (s.custodyClose e t) :=
  OnlySpans.trans ⟨_, _, rfl⟩ (announce_frame _ _)

theorem custodyReport_frame (s : State) (k : StationId) (j t : Option Slice) :
    OnlySpans s (s.custodyReport k j t) := by
  unfold State.custodyReport
  exact OnlySpans.trans
    (foldl_frame OnlySpans.refl OnlySpans.trans _ (fun s e => custodyClose_frame s e _) _ _)
    ⟨_, _, rfl⟩

theorem returnReport_frame (s : State) (k : StationId) (j : Option Slice) :
    OnlySpans s (s.returnReport k j) := by
  unfold State.returnReport
  split
  · exact OnlySpans.refl s
  · exact OnlySpans.trans (foldl_frame OnlySpans.refl OnlySpans.trans _ announce_frame _ _)
      ⟨_, _, rfl⟩

/-! ### Recall service -/

theorem pump_frame (s : State) : OnlyServer s s.pump := ⟨_, rfl⟩

theorem purgeRecall_frame (s : State) (k : StationId) : OnlyServer s (s.purgeRecall k) := ⟨_, rfl⟩

theorem produceLookup_frame (s : State) (f : Lookup) : OnlyServer s (s.produceLookup f) := by
  unfold State.produceLookup
  split
  · exact OnlyServer.refl s
  · split
    · exact OnlyServer.refl s
    · exact ⟨_, rfl⟩

/-! ### Store -/

theorem stageCapture_frame (s : State) (p : OwnPage) : OnlyStore s (s.stageCapture p) := by
  unfold State.stageCapture
  split
  · exact ⟨_, _, rfl⟩
  · split <;> exact ⟨_, _, rfl⟩

theorem stageMirror_frame (s : State) (p : MirrorPage) : OnlyStore s (s.stageMirror p) := by
  unfold State.stageMirror
  split
  · exact ⟨_, _, rfl⟩
  · split <;> exact ⟨_, _, rfl⟩

theorem grantCapture_frame (s : State) (p : OwnPage) : OnlyStorage s (s.grantCapture p) := by
  unfold State.grantCapture
  have h := beginOwn_frame s p
  cases hw : s.store.captureWrite with
  | some w => simp only [hw]; exact ⟨_, _, _, _, rfl⟩
  | none =>
    obtain ⟨a, r, h⟩ := h
    simp only [h]
    exact ⟨_, _, _, _, rfl⟩

theorem grantMirror_frame (s : State) (p : MirrorPage) : OnlyStorage s (s.grantMirror p) := by
  unfold State.grantMirror
  have h := beginMirror_frame s p
  cases hw : s.store.mirrorWrite with
  | some w => simp only [hw]; exact ⟨_, _, _, _, rfl⟩
  | none =>
    obtain ⟨a, r, h⟩ := h
    simp only [h]
    exact ⟨_, _, _, _, rfl⟩

theorem answerClaim_frame (s : State) (f : Lookup) : OnlyStorage s (s.answerClaim f) :=
  OnlyStorage.trans ⟨_, _, _, _, rfl⟩
    (OnlyServer.storage (OnlyServer.trans (produceLookup_frame _ f) (pump_frame _)))

theorem grantFrom_frame (n : Nat) (s : State) : OnlyStorage s (s.grantFrom n) := by
  induction n generalizing s with
  | zero => exact OnlyStorage.refl s
  | succ n ih =>
    unfold State.grantFrom
    split
    · exact OnlyStorage.refl s
    · split
      · exact OnlyStorage.refl s
      · exact ⟨_, _, _, _, rfl⟩
      · split
        · exact ⟨_, _, _, _, rfl⟩
        · split
          · exact grantCapture_frame _ _
          · split
            · split
              · exact OnlyStorage.trans ⟨_, _, _, _, rfl⟩ (ih _)
              · exact grantMirror_frame _ _
            · split
              · split
                · exact ⟨_, _, _, _, rfl⟩
                all_goals exact OnlyStorage.trans (answerClaim_frame _ _) (ih _)
              · split
                · exact ⟨_, _, _, _, rfl⟩
                · exact OnlyStorage.refl s

/-- The grant changes the rings, the store controller, the recall service and the notices raised, and
nothing else. -/
theorem grant_frame (s : State) : OnlyStorage s s.grant := grantFrom_frame _ s

/-- What the end of a command can change. -/
theorem finish_frame (s : State) : ∃ a b c n f,
    s.finish = { s with rings := a, store := b, server := c, notices := n, freeUses := f
                        raised := [] } := by
  obtain ⟨a, b, c, r, h⟩ := grant_frame s
  unfold State.finish State.settleNotices
  rw [h]
  exact ⟨_, _, _, _, _, rfl⟩

theorem storeFault_frame (s : State) : OnlyStorage s s.storeFault := by
  unfold State.storeFault
  dsimp only
  refine OnlyStorage.trans ?_ (⟨_, _, _, _, rfl⟩ : OnlyStorage _ _)
  refine OnlyStorage.trans ?_ (⟨_, _, _, _, rfl⟩ : OnlyStorage _ _)
  refine OnlyStorage.trans ?_ (restartMirror_frame _ _).storage
  refine OnlyStorage.trans ?_ (restartOwn_frame _ _).storage
  exact ⟨_, _, _, _, rfl⟩

theorem refreshTick_frame (s : State) : OnlyStorage s s.refreshTick := by
  unfold State.refreshTick
  split
  · split
    · exact storeFault_frame s
    · exact ⟨_, _, _, _, rfl⟩
  · exact OnlyStorage.refl s

theorem advanceWrite_frame (s : State) (k : PageKind) (b : Bool) :
    OnlyStorage s (s.advanceWrite k b) := by
  unfold State.advanceWrite
  split
  · split
    · unfold State.advanceCapture
      split
      · split
        · exact OnlyStorage.trans ⟨_, _, _, _, rfl⟩ (completeOwn_frame _ _ _).storage
        · exact ⟨_, _, _, _, rfl⟩
      · exact OnlyStorage.refl s
    · unfold State.advanceMirror
      split
      · split
        · exact OnlyStorage.trans ⟨_, _, _, _, rfl⟩ (completeMirror_frame _ _ _).storage
        · exact ⟨_, _, _, _, rfl⟩
      · exact OnlyStorage.refl s
  · exact OnlyStorage.refl s

theorem resplit_frame (s : State) : OnlyStorage s s.resplit := by
  unfold State.resplit
  dsimp only
  exact OnlyStorage.trans
    (OnlyRings.storage (OnlyRings.trans (restartOwn_frame s _) (restartMirror_frame _ _)))
    ⟨_, _, _, _, rfl⟩

end Sys2Proof.Machine
end

