-- ==== Sys2Proof/Laws/Blocks.lean ====
section
/-! SUPPORT. The frames of the operations that several blocks share: the selections, losses, headers,
requests, received frames, boundaries. -/

namespace Sys2Proof.Machine

/-- Only the blocks' own states and the raised notices differ: no pin, no byte of the DRAM, no queued
notice, no waiting command. -/
def OnlyBlocks (s t : State) : Prop := ∃ a b c d e f g h i r,
  t = { s with clock := a, seat := b, link := c, roster := d, spans := e, rings := f, store := g
               server := h, control := i, raised := r }

theorem OnlyBlocks.refl (s : State) : OnlyBlocks s s := ⟨_, _, _, _, _, _, _, _, _, _, rfl⟩

theorem OnlyBlocks.trans {s t u : State} : OnlyBlocks s t → OnlyBlocks t u → OnlyBlocks s u := by
  rintro ⟨_, _, _, _, _, _, _, _, _, _, rfl⟩ ⟨_, _, _, _, _, _, _, _, _, _, rfl⟩
  exact ⟨_, _, _, _, _, _, _, _, _, _, rfl⟩

theorem OnlyStorage.blocks {s t : State} : OnlyStorage s t → OnlyBlocks s t := by
  rintro ⟨_, _, _, _, rfl⟩; exact ⟨_, _, _, _, _, _, _, _, _, _, rfl⟩
theorem OnlyRings.blocks {s t : State} (h : OnlyRings s t) : OnlyBlocks s t := h.storage.blocks
theorem OnlyServer.blocks {s t : State} (h : OnlyServer s t) : OnlyBlocks s t := h.storage.blocks
theorem OnlyStore.blocks {s t : State} (h : OnlyStore s t) : OnlyBlocks s t := h.storage.blocks
theorem OnlySpans.blocks {s t : State} : OnlySpans s t → OnlyBlocks s t := by
  rintro ⟨_, _, rfl⟩; exact ⟨_, _, _, _, _, _, _, _, _, _, rfl⟩

theorem OnlyBlocks.dram {s t : State} : OnlyBlocks s t → t.dram = s.dram := by
  rintro ⟨_, _, _, _, _, _, _, _, _, _, rfl⟩; rfl
theorem OnlyBlocks.pending {s t : State} : OnlyBlocks s t → t.pending = s.pending := by
  rintro ⟨_, _, _, _, _, _, _, _, _, _, rfl⟩; rfl
theorem OnlyBlocks.notices {s t : State} : OnlyBlocks s t → t.notices = s.notices := by
  rintro ⟨_, _, _, _, _, _, _, _, _, _, rfl⟩; rfl
theorem OnlyBlocks.resetN {s t : State} : OnlyBlocks s t → t.resetN = s.resetN := by
  rintro ⟨_, _, _, _, _, _, _, _, _, _, rfl⟩; rfl
theorem OnlyBlocks.stWait {s t : State} : OnlyBlocks s t → t.stWait = s.stWait := by
  rintro ⟨_, _, _, _, _, _, _, _, _, _, rfl⟩; rfl
theorem OnlyBlocks.stopN {s t : State} : OnlyBlocks s t → t.stopN = s.stopN := by
  rintro ⟨_, _, _, _, _, _, _, _, _, _, rfl⟩; rfl

/-- A block's own update, and a notice raised. -/
theorem onlyBlocks_mk (s : State) (a b c d e f g h i r) :
    OnlyBlocks s { s with clock := a, seat := b, link := c, roster := d, spans := e, rings := f
                          store := g, server := h, control := i, raised := r } :=
  ⟨_, _, _, _, _, _, _, _, _, _, rfl⟩

/-! ### Clock -/

/-- Only the clock and the raised notices differ. -/
def OnlyClock (s t : State) : Prop := ∃ a r, t = { s with clock := a, raised := r }

theorem OnlyClock.refl (s : State) : OnlyClock s s := ⟨_, _, rfl⟩
theorem OnlyClock.blocks {s t : State} : OnlyClock s t → OnlyBlocks s t := by
  rintro ⟨_, _, rfl⟩; exact ⟨_, _, _, _, _, _, _, _, _, _, rfl⟩

theorem followReference_frame (s : State) (a b : Option StationId) :
    OnlyClock s (s.followReference a b) := by
  unfold State.followReference
  dsimp only
  split
  · exact OnlyClock.refl s
  · split
    · exact OnlyClock.refl s
    · exact ⟨_, _, rfl⟩
  · exact ⟨_, _, rfl⟩
  · exact ⟨_, _, rfl⟩
  · split <;> exact ⟨_, _, rfl⟩

/-- The clock's reaction to a new reference keeps its time, trim and mark (R6). -/
theorem followReference_clock (s : State) (a b : Option StationId) :
    (s.followReference a b).clock.trim = s.clock.trim
    ∧ (s.followReference a b).clock.applied = s.clock.applied
    ∧ (s.followReference a b).clock.index = s.clock.index
    ∧ (s.followReference a b).clock.samplePos = s.clock.samplePos
    ∧ (s.followReference a b).clock.divider = s.clock.divider
    ∧ (s.followReference a b).clock.mark = s.clock.mark := by
  unfold State.followReference
  dsimp only
  split
  · exact ⟨rfl, rfl, rfl, rfl, rfl, rfl⟩
  · split <;> exact ⟨rfl, rfl, rfl, rfl, rfl, rfl⟩
  · exact ⟨rfl, rfl, rfl, rfl, rfl, rfl⟩
  · exact ⟨rfl, rfl, rfl, rfl, rfl, rfl⟩
  · split <;> exact ⟨rfl, rfl, rfl, rfl, rfl, rfl⟩

theorem leaveFree_frame (s : State) : OnlyClock s s.leaveFree := ⟨_, _, rfl⟩

theorem takeStep_frame (s : State) (c : Slice) : OnlyClock s (s.takeStep c) := by
  unfold State.takeStep; split <;> exact ⟨_, _, rfl⟩

theorem measureFrame_frame (s : State) (l : LeadIn) (k : StationId) (h : Slice) :
    OnlyClock s (s.measureFrame l k h) := by
  unfold State.measureFrame State.countGood State.countBad
  dsimp only
  split
  · exact ⟨_, _, rfl⟩
  · split
    · split
      · split <;> exact ⟨_, _, rfl⟩
      · exact ⟨_, _, rfl⟩
    · split
      · split <;> exact ⟨_, _, rfl⟩
      · exact ⟨_, _, rfl⟩

theorem clockFrame_frame (s : State) (h : Header) (l : LeadIn) : OnlyClock s (s.clockFrame h l) := by
  unfold State.clockFrame
  split
  · split
    · exact ⟨_, _, rfl⟩
    · exact OnlyClock.refl s
  · exact OnlyClock.refl s
  · split
    · exact measureFrame_frame _ _ _ _
    · exact OnlyClock.refl s
  · split
    · exact measureFrame_frame _ _ _ _
    · exact OnlyClock.refl s
  · split
    · exact ⟨_, _, rfl⟩
    · exact OnlyClock.refl s

theorem clockLeadIn_frame (s : State) (h : Header) (l : Option LeadIn) :
    OnlyClock s (s.clockLeadIn h l) := by
  cases l with
  | none => exact OnlyClock.refl s
  | some l => exact clockFrame_frame s h l

/-! ### Selections -/

/-- What a recomputation can change: the clock, the selections (no entry), the runs, the join
correction. -/
def OnlySelections (s t : State) : Prop := ∃ c a b g x r,
  t = { s with clock := c, roster := { s.roster with reference := a, mirror := b }, rings := g
               control := { s.control with correction := x }, raised := r }

theorem OnlySelections.trans {s t u : State} :
    OnlySelections s t → OnlySelections t u → OnlySelections s u := by
  rintro ⟨_, _, _, _, _, _, rfl⟩ ⟨_, _, _, _, _, _, rfl⟩
  exact ⟨_, _, _, _, _, _, rfl⟩

theorem OnlySelections.blocks {s t : State} : OnlySelections s t → OnlyBlocks s t := by
  rintro ⟨_, _, _, _, _, _, rfl⟩
  exact ⟨_, _, _, _, _, _, _, _, _, _, rfl⟩

theorem presentReference_frame (s : State) (n : Option StationId) :
    OnlySelections s (s.presentReference n) := by
  unfold State.presentReference
  dsimp only
  split
  · exact ⟨_, _, _, _, _, _, rfl⟩
  · split
    · obtain ⟨_, _, h⟩ := followReference_frame
        ((s.withRoster { s.roster with reference := n }).raise .roster .referenceChanged (idOr255 n)
          (BitVec.ofNat 16 (idOr255 s.roster.reference))) s.roster.reference n
      rw [h]
      exact ⟨_, _, _, _, _, _, rfl⟩
    · exact ⟨_, _, _, _, _, _, rfl⟩

theorem presentMirror_frame (s : State) (n : Option StationId) :
    OnlySelections s (s.presentMirror n) := by
  unfold State.presentMirror
  dsimp only
  split <;> exact ⟨_, _, _, _, _, _, rfl⟩

theorem disarmIfOwn_frame (s : State) : OnlySelections s s.disarmIfOwn := by
  unfold State.disarmIfOwn
  split <;> exact ⟨_, _, _, _, _, _, rfl⟩

theorem recompute_frame (s : State) : OnlySelections s s.recompute :=
  ((presentReference_frame _ _).trans (presentMirror_frame _ _)).trans (disarmIfOwn_frame _)

/-! ### Headers and losses -/

theorem reportIncarnation_frame (s : State) (k : StationId) (e : RosterEntry) :
    OnlyBlocks s (s.reportIncarnation k e) := by
  have h : OnlyBlocks s ((s.incarnationReport k e.lastBlock).purgeRecall k) :=
    ⟨_, _, _, _, _, _, _, _, _, _, rfl⟩
  unfold State.reportIncarnation
  dsimp only
  split
  · exact h.trans (closeRun_frame _).blocks
  · exact h

theorem applyHeader_frame (s : State) (h : Header) (t : Option Slice) :
    OnlyBlocks s (s.applyHeader h t) := by
  unfold State.applyHeader
  dsimp only
  refine OnlyBlocks.trans ?_ (recompute_frame _).blocks
  have h1 : OnlyBlocks s (if ((s.entry h.sender).hearing h).isNew = true then
      s.reportIncarnation h.sender (s.entry h.sender) else s) := by
    split
    · exact reportIncarnation_frame _ _ _
    · exact OnlyBlocks.refl s
  have h2 : ∀ (u : State) (e : RosterEntry), OnlyBlocks u (u.setEntry h.sender e) :=
    fun _ _ => ⟨_, _, _, _, _, _, _, _, _, _, rfl⟩
  have h3 : ∀ (u : State) (c : Hearing), OnlyBlocks u (match c.detail with
      | none => u
      | some d => u.raise .roster .peerJoined h.sender.val d) := by
    intro u c
    split
    · exact OnlyBlocks.refl u
    · exact ⟨_, _, _, _, _, _, _, _, _, _, rfl⟩
  split
  · exact (h1.trans (h2 _ _)).trans ((h3 _ _).trans (returnReport_frame _ _ _).blocks)
  · exact (h1.trans (h2 _ _)).trans (h3 _ _)

theorem losePeer_frame (s : State) (k : StationId) : OnlyBlocks s (s.losePeer k) := by
  unfold State.losePeer
  dsimp only
  refine OnlyBlocks.trans ?_ (purgeRecall_frame _ _).blocks
  split
  · exact OnlyBlocks.trans ⟨_, _, _, _, _, _, _, _, _, _, rfl⟩ (custodyReport_frame _ _ _ _).blocks
  · exact OnlyBlocks.trans ⟨_, _, _, _, _, _, _, _, _, _, rfl⟩ (lossReport_frame _ _ _).blocks

theorem losePeers_frame (s : State) : OnlyBlocks s s.losePeers := by
  unfold State.losePeers
  refine foldl_frame OnlyBlocks.refl OnlyBlocks.trans _ (fun s k => ?_) _ _
  split
  · exact losePeer_frame s k
  · exact OnlyBlocks.refl s

/-! ### Requests -/

theorem enforce_frame (s : State) (p : PendingCharter) : OnlyBlocks s (s.enforce p) := by
  unfold State.enforce
  dsimp only
  split
  · exact OnlyBlocks.trans (resplit_frame s).blocks ⟨_, _, _, _, _, _, _, _, _, _, rfl⟩
  · exact ⟨_, _, _, _, _, _, _, _, _, _, rfl⟩

theorem adoptNow_frame (s : State) (p : PendingCharter) : OnlyBlocks s (s.adoptNow p) := by
  have h : OnlyBlocks s ((s.enforce p).settingsFrom p.charter) :=
    (enforce_frame s p).trans (settingsFrom_frame _ _).blocks
  unfold State.adoptNow
  dsimp only
  split
  · exact h.trans (recompute_frame _).blocks
  · exact h

theorem judgeCharter_frame (s : State) (p : PendingCharter) : OnlyBlocks s (s.judgeCharter p) := by
  unfold State.judgeCharter
  dsimp only
  split
  · exact adoptNow_frame s p
  · split
    · exact OnlyBlocks.refl s
    · split
      · exact ⟨_, _, _, _, _, _, _, _, _, _, rfl⟩
      · split
        · exact ⟨_, _, _, _, _, _, _, _, _, _, rfl⟩
        · exact OnlyBlocks.refl s

theorem takeCharter_frame (s : State) (k : StationId) (b : List Byte) :
    OnlyBlocks s (s.takeCharter k b) := by
  unfold State.takeCharter
  split
  · split
    · exact ⟨_, _, _, _, _, _, _, _, _, _, rfl⟩
    · exact judgeCharter_frame _ _
  · exact OnlyBlocks.refl s

theorem judgeRecall_frame (s : State) (k : StationId) (t : Half) (a b : Byte) (f l : Slice) :
    OnlyBlocks s (s.judgeRecall k t a b f l) := by
  unfold State.judgeRecall State.refuseRecall
  split
  · exact ⟨_, _, _, _, _, _, _, _, _, _, rfl⟩
  · dsimp only
    split
    · exact ⟨_, _, _, _, _, _, _, _, _, _, rfl⟩
    · split
      · exact ⟨_, _, _, _, _, _, _, _, _, _, rfl⟩
      · split
        · exact ⟨_, _, _, _, _, _, _, _, _, _, rfl⟩
        · split
          · exact OnlyBlocks.refl s
          · split <;> exact ⟨_, _, _, _, _, _, _, _, _, _, rfl⟩

theorem takeRequest_frame (s : State) (k : StationId) (r : Request) :
    OnlyBlocks s (s.takeRequest k r) := by
  unfold State.takeRequest
  split
  · exact takeCharter_frame _ _ _
  · unfold State.takeCondition
    split
    · split
      · exact OnlyBlocks.refl s
      · exact ⟨_, _, _, _, _, _, _, _, _, _, rfl⟩
    · exact OnlyBlocks.refl s
  · unfold State.takeTimeMark
    split
    · exact ⟨_, _, _, _, _, _, _, _, _, _, rfl⟩
    · exact OnlyBlocks.refl s
  · unfold State.takeProbe
    split
    · exact ⟨_, _, _, _, _, _, _, _, _, _, rfl⟩
    · exact OnlyBlocks.refl s
  · unfold State.takeStop
    split
    · exact ⟨_, _, _, _, _, _, _, _, _, _, rfl⟩
    · exact OnlyBlocks.refl s
  · unfold State.takeStart
    split
    · exact ⟨_, _, _, _, _, _, _, _, _, _, rfl⟩
    · exact OnlyBlocks.refl s
  · unfold State.takeArchiveMark
    split
    · exact ⟨_, _, _, _, _, _, _, _, _, _, rfl⟩
    · exact OnlyBlocks.refl s
  · unfold State.takeRecallRequest State.takeRecall
    split
    · split
      · exact judgeRecall_frame _ _ _ _ _ _ _
      · exact OnlyBlocks.refl s
    · exact OnlyBlocks.refl s

/-! ### Received frames -/

theorem hearCondition_frame (s : State) (h : Header) : OnlyBlocks s (s.hearCondition h) := by
  unfold State.hearCondition
  dsimp only
  split
  · split
    · split
      · split <;> exact ⟨_, _, _, _, _, _, _, _, _, _, rfl⟩
      · exact OnlyBlocks.refl s
    · exact ⟨_, _, _, _, _, _, _, _, _, _, rfl⟩
  · exact OnlyBlocks.refl s

theorem mirrorBlocks_frame (s : State) (k : StationId) (bs : List Block) :
    OnlyBlocks s (s.mirrorBlocks k bs) := by
  unfold State.mirrorBlocks
  split
  · split
    · exact (closeRun_frame s).blocks
    · exact (stageMirror_frame _ _).blocks
  · exact OnlyBlocks.refl s

theorem hearClaim_frame (s : State) (h : Header) : OnlyBlocks s (s.hearClaim h) := by
  unfold State.hearClaim
  split
  · exact ⟨_, _, _, _, _, _, _, _, _, _, rfl⟩
  · exact OnlyBlocks.refl s

theorem acceptWindow_frame (s : State) (f : WindowFrame) (l : Option LeadIn) :
    OnlyBlocks s (s.acceptWindow f l) := by
  unfold State.acceptWindow
  dsimp only
  refine OnlyBlocks.trans ?_ (hearClaim_frame _ _)
  refine OnlyBlocks.trans ?_
    (foldl_frame OnlyBlocks.refl OnlyBlocks.trans _ (fun s r => takeRequest_frame s _ r) _ _)
  refine OnlyBlocks.trans ?_
    (foldl_frame OnlyBlocks.refl OnlyBlocks.trans _ (fun s es => (applyBeacon_frame s _ es).blocks)
      _ _)
  refine OnlyBlocks.trans ?_
    (foldl_frame OnlyBlocks.refl OnlyBlocks.trans _ (fun s i => (applyItem_frame s _ i).blocks) _ _)
  refine OnlyBlocks.trans ?_ (mirrorBlocks_frame _ _ _)
  refine OnlyBlocks.trans ?_ (clockLeadIn_frame _ _ _).blocks
  exact (applyHeader_frame _ _ _).trans (hearCondition_frame _ _)

/-! ### Boundaries -/

theorem enterMode_frame (s : State) (m : Mode) (k : Option StationId) :
    OnlyBlocks s (s.enterMode m k) := ⟨_, _, _, _, _, _, _, _, _, _, rfl⟩

theorem decideListen_frame (s : State) (b : Bool) : OnlyBlocks s (s.decideListen b) := by
  have h : OnlyBlocks s s.settleDefaults := by
    unfold State.settleDefaults
    split
    · exact ⟨_, _, _, _, _, _, _, _, _, _, rfl⟩
    · exact OnlyBlocks.refl s
  unfold State.decideListen
  dsimp only
  split
  · exact h.trans ⟨_, _, _, _, _, _, _, _, _, _, rfl⟩
  · exact h

theorem changeMode_frame (s : State) (b : Bool) : OnlyBlocks s (s.changeMode b) := by
  unfold State.changeMode
  split
  · exact OnlyBlocks.refl s
  · split
    · exact ⟨_, _, _, _, _, _, _, _, _, _, rfl⟩
    · exact OnlyBlocks.refl s
  · exact OnlyBlocks.trans ⟨_, _, _, _, _, _, _, _, _, _, rfl⟩ (decideListen_frame _ _)
  · split
    · exact ⟨_, _, _, _, _, _, _, _, _, _, rfl⟩
    · exact OnlyBlocks.refl s
  · split
    · exact OnlyBlocks.refl s
    · dsimp only; split <;> exact ⟨_, _, _, _, _, _, _, _, _, _, rfl⟩

theorem controlBoundary_frame (s : State) (b : Bool) : OnlyBlocks s (s.controlBoundary b) := by
  have h1 : OnlyBlocks s s.adoptPending := by
    unfold State.adoptPending
    split
    · exact OnlyBlocks.refl s
    · exact enforce_frame s _
  have h2 : ∀ u : State, OnlyBlocks u u.changeCondition := by
    intro u
    unfold State.changeCondition
    split
    · exact OnlyBlocks.refl u
    · exact ⟨_, _, _, _, _, _, _, _, _, _, rfl⟩
  exact (h1.trans (h2 _)).trans (changeMode_frame _ _)

theorem settleUnsent_frame (s : State) : OnlyBlocks s s.settleUnsent := by
  unfold State.settleUnsent
  split
  · exact OnlyBlocks.refl s
  · exact ⟨_, _, _, _, _, _, _, _, _, _, rfl⟩

theorem updateLane_frame (o : State) (p : Presented) (s : State) (l : Lane) :
    OnlyBlocks s (o.updateLane p s l) := by
  unfold State.updateLane
  dsimp only
  split <;> exact ⟨_, _, _, _, _, _, _, _, _, _, rfl⟩

theorem seatBoundary_frame (s : State) (p : Presented) (q : Option Split) :
    OnlyBlocks s (s.seatBoundary p q) := by
  unfold State.seatBoundary State.capturedBoundary
  dsimp only
  refine (settleUnsent_frame s).trans ?_
  split
  · refine OnlyBlocks.trans ?_ (stageCapture_frame _ _).blocks
    refine OnlyBlocks.trans ?_ (foldl_frame OnlyBlocks.refl OnlyBlocks.trans _
      (fun t l => (detectorLane_frame t l _ _ _ _).blocks) _ _)
    exact foldl_frame OnlyBlocks.refl OnlyBlocks.trans _ (fun t l => updateLane_frame _ _ t l) _ _
  · exact foldl_frame OnlyBlocks.refl OnlyBlocks.trans _
      (fun t l => (detectOnly_frame _ t l).blocks) _ _

theorem endFree_frame (s : State) (m : Option Mode) : OnlyBlocks s (s.endFree m) := by
  unfold State.endFree
  split
  · exact (leaveFree_frame s).blocks
  · exact OnlyBlocks.refl s

theorem clockBoundary_frame (s : State) (p : Presented) (n : Nat) :
    OnlyBlocks s (s.clockBoundary p n) := by
  unfold State.clockBoundary
  dsimp only
  split
  · exact OnlyBlocks.trans ⟨_, _, _, _, _, _, _, _, _, _, rfl⟩ (takeStep_frame _ _).blocks
  · exact ⟨_, _, _, _, _, _, _, _, _, _, rfl⟩

theorem linkBoundary_frame (s : State) : OnlyBlocks s s.linkBoundary :=
  ⟨_, _, _, _, _, _, _, _, _, _, rfl⟩

theorem beginSlice_frame (s : State) : OnlyBlocks s s.beginSlice :=
  ⟨_, _, _, _, _, _, _, _, _, _, rfl⟩

theorem ageing_frame (s : State) : OnlyBlocks s s.ageOrphans.timeOutOrphans.ageEntries :=
  ⟨_, _, _, _, _, _, _, _, _, _, rfl⟩

/-- A boundary changes the blocks and the STOP_N level held, and nothing else. -/
theorem boundary_frame (s : State) (b : Bool) (p : Presented) (n : Nat) :
    OnlyBlocks { s with stopN := b } (s.boundary b p n) := by
  have h1 := (clockBoundary_frame { s with stopN := b } p n).trans
    ((ageing_frame _).trans (losePeers_frame _))
  have h2 := (h1.trans (seatBoundary_frame _ p (s.splitAt b p.stepped p.ended p.next))).trans
    (controlBoundary_frame _ b)
  have h3 := (h2.trans (recompute_frame _).blocks).trans (endFree_frame _ s.control.mode)
  exact (h3.trans (beginSlice_frame _)).trans (linkBoundary_frame _)

end Sys2Proof.Machine
end

