-- ==== Sys2Proof/Laws/Notices.lean ====
section
/-! SUPPORT. How the notices raised in a step join the queue, and when the store's grant does nothing. -/

namespace Sys2Proof.Machine

/-- Nothing raised: nothing joins. -/
theorem settleNotices_none (s : State) (h : s.raised = []) : s.settleNotices = s := by
  obtain ⟨_, _, _, _, _, _, _, _, _, _, _, _, _, _, _, _, _⟩ := s
  subst h
  rfl

/-- Notices of one block join in the order raised, and use no free value (R174). -/
theorem mergeRaised_one (n c : Nat) (rs : List Raised) (b : Raiser) (h : ∀ r ∈ rs, r.raiser = b) :
    mergeRaised n c rs = (rs.map Raised.notice, c) := by
  have key : ∀ (l : List Raised), (∀ r ∈ l, r.raiser = b) → raisersOf l [b] = [b] := by
    intro l
    induction l with
    | nil => intro _; rfl
    | cons r l ih =>
      intro hl
      have hr : r.raiser = b := hl r (by simp)
      simp only [raisersOf, hr, List.mem_singleton, if_true]
      exact ih fun x hx => hl x (by simp [hx])
  cases n with
  | zero => rfl
  | succ n =>
    cases rs with
    | nil => rfl
    | cons r rs =>
      have hr : r.raiser = b := h r (by simp)
      have h1 : raisersOf (r :: rs) [] = [b] := by
        simp only [raisersOf, hr, List.not_mem_nil, if_false, List.nil_append]
        exact key rs fun x hx => h x (by simp [hx])
      simp only [mergeRaised, h1]

/-- One notice raised joins the tail, or is dropped and counted (R174). -/
theorem settleNotices_one (s : State) (r : Raised) (h : s.raised = [r]) :
    s.settleNotices =
      { s with notices := s.notices.join s.windowInFlight r.notice, raised := [] } := by
  have hm : mergeRaised s.raised.length s.freeUses s.raised = ([r.notice], s.freeUses) := by
    rw [h]; exact mergeRaised_one _ _ _ r.raiser (by simp)
  unfold State.settleNotices
  simp only [hm, List.foldl]

/-- The queue stays within 64 entries (R174). -/
theorem NoticeQueue.join_length (b : Bool) (q : NoticeQueue) (n : Notice)
    (h : q.entries.length ≤ 64) : (q.join b n).entries.length ≤ 64 := by
  unfold NoticeQueue.join
  split
  · rename_i hl; simp [Config.noticeCapacity] at hl ⊢; omega
  · exact h

/-- The entries of the queue keep their places when another notice is raised. -/
theorem NoticeQueue.join_prefix (b : Bool) (q : NoticeQueue) (n : Notice) :
    q.entries <+: (q.join b n).entries := by
  unfold NoticeQueue.join
  split
  · exact List.prefix_append _ _
  · exact List.prefix_refl _

/-- Settling only appends to the queue. -/
theorem settleNotices_prefix (s : State) : s.notices.entries <+: s.settleNotices.notices.entries := by
  unfold State.settleNotices
  dsimp only
  generalize (mergeRaised s.raised.length s.freeUses s.raised).1 = l
  generalize s.notices = q
  induction l generalizing q with
  | nil => exact List.prefix_refl _
  | cons n l ih => exact (NoticeQueue.join_prefix _ q n).trans (ih _)

/-- A busy store grants nothing (R123). -/
theorem grantFrom_busy (n : Nat) (s : State) (h : s.store.op ≠ none) : s.grantFrom n = s := by
  cases n with
  | zero => rfl
  | succ n => unfold State.grantFrom; rw [if_pos (Or.inl h)]

/-- While ST_WAIT is held nothing is granted (R126). -/
theorem grantFrom_held (n : Nat) (s : State) (h : s.stWait = true) : s.grantFrom n = s := by
  cases n with
  | zero => rfl
  | succ n => unfold State.grantFrom; rw [if_pos (Or.inr h)]

/-- A busy store grants nothing (R123). -/
theorem grant_busy (s : State) (h : s.store.op ≠ none) : s.grant = s := grantFrom_busy _ s h

/-- While ST_WAIT is held nothing is granted (R126). -/
theorem grant_held (s : State) (h : s.stWait = true) : s.grant = s := grantFrom_held _ s h

/-- In PAUSE nothing is granted (R128). -/
theorem grant_pause (s : State) (h : s.store.phase = .pause) : s.grant = s := by
  unfold State.grant State.grantFrom
  split
  · rfl
  · simp [h]

end Sys2Proof.Machine
end

