-- ==== Sys2Proof/Certificates/Slice0/Obligations.lean ====
section
/-! DEFINITION. The statements about the model, for the provers. Each holds for every state that meets
its premises, reachable or not. A frame is written `t = { s with x := t.x, … }`: every field not named
there is as it was. -/

open Sys2Proof Sys2Proof.Machine

/-! ### Steps and reset -/

/-- A step takes the command at the front of the queue and executes it on the state with the queue's
rest. -/
def Obligations.StepRunsFrontCommand : Prop :=
  ∀ (c : Instr) (rest : List Instr) (s : State),
    s.pending = c :: rest → step s = exec c { s with pending := rest }

/-- On an empty queue one count of the oscillator passes (the model's choice, log 4): the divider rises
by one until the sample period's last count, PAUSE's time rises by one up to 4,800, and nothing else
changes; nothing at all changes while RESET_N is low. -/
def Obligations.EmptyQueuePassesOneCount : Prop :=
  ∀ s : State, s.pending = [] → ∃ t, step s = .next t ∧
    (s.resetN = false → t = s) ∧
    (s.resetN = true →
      t.clock.divider =
        (if s.clock.divider + 1 < periodLength s.clock.applied s.clock.samplePos
          then s.clock.divider + 1 else s.clock.divider) ∧
      t.store.pauseTime =
        (if s.store.phase = .pause ∧ s.store.pauseTime < 4800 then s.store.pauseTime + 1
          else s.store.pauseTime) ∧
      t = { s with clock := { s.clock with divider := t.clock.divider }
                   store := { s.store with pauseTime := t.store.pauseTime } })

/-- RESET_ASSERTED, at any instant: every block is discarded at once, and the station has no station
state. The fields hold the values of State.fresh meanwhile, and the straps, the pins, the free-value
counter and the waiting commands stay (the model's choice, log 8): nothing is staged, queued, in flight,
in the rings or in the roster, and the store's contents are lost. -/
def Obligations.ResetAssertedDiscardsEverything : Prop :=
  ∀ s : State, ∃ t, exec .resetAsserted s = .next t ∧
    t = { resetN := false, stopN := s.stopN, stWait := s.stWait
          clock := Clock.reset, seat := SeatCapture.reset s.seat.laneCount, link := Link.reset
          roster := Roster.reset, spans := Spans.reset, rings := Rings.reset
          store := Store.reset, dram := [], server := Recall.reset
          control := Control.reset s.control.id s.control.sizeCode none
          notices := NoticeQueue.reset, raised := [], freeUses := s.freeUses
          pending := s.pending } ∧
    t.control.mode = none ∧ t.link.tx = .silent ∧ t.link.flight = none ∧
    t.link.due = [] ∧ t.link.rx = .hunting ∧ (∀ k, look t.roster.entries k = RosterEntry.reset) ∧
    t.roster.reference = none ∧ t.roster.mirror = none ∧
    t.spans.table = [] ∧ t.spans.outbox = [] ∧ t.spans.custody = [] ∧ t.rings.own.pages = [] ∧
    t.rings.mirror.pages = [] ∧ t.rings.runs = [] ∧ (∀ k, look t.rings.marks k = none) ∧
    t.store.op = none ∧ t.store.capture = [] ∧ t.store.mirror = [] ∧
    t.store.captureWrite = none ∧ t.store.mirrorWrite = none ∧ t.server.queue = [] ∧
    t.server.cursor = none ∧ t.server.pos = none ∧ t.server.buffer = [] ∧ t.server.claim = none ∧
    t.server.inFlight = none ∧ t.notices.entries = [] ∧ t.alertN = true ∧ t.clock.plan = none ∧
    t.clock.mark = none ∧ t.clock.trim = 0 ∧ t.seat.capturing = false ∧
    (∀ l, look t.seat.accs l = Accumulator.cleared) ∧ t.control.charter = Charter.defaults ∧
    t.control.pendingCharter = none ∧ t.control.pendingStop = none ∧
    t.control.pendingStart = none ∧ t.control.pendingCondition = none

/-- RESET_RELEASED from a low RESET_N: the straps are read (which pin is the lowest bit of the seat-count and
store size codes is the model's choice, log 44) and every field takes the value of R4, R20,
R25, R31, R56, R58, R73, R82, R88, R98, R102, R127, R139, R158, R159 and R174. With every strap at 0,
STOP_N high and ST_WAIT released (the model's choice, log 1) the machine is State.reset. A release when
RESET_N is already high changes nothing (log 3). -/
def Obligations.ResetReleasedGivesResetValues : Prop :=
  (∀ (ids : BitVec 4) (scs : BitVec 3) (szs : BitVec 2) (s : State), s.resetN = false →
    ∃ t, exec (.resetReleased ids scs szs) s = .next t ∧ t.resetN = true ∧
      t.clock.divider = 0 ∧ t.clock.samplePos = 0 ∧ t.clock.index = 0 ∧ t.clock.trim = 0 ∧
      t.clock.applied = 0 ∧ t.clock.discipline = .free ∧ t.clock.aligned = false ∧
      t.clock.goodRun = 0 ∧ t.clock.badRun = 0 ∧ t.clock.plan = none ∧ t.clock.mark = none ∧
      t.seat.laneCount = (if scs = 0 then 8 else scs.toNat) ∧ t.seat.capturing = false ∧
      t.seat.unsentSlices = 0 ∧
      (∀ l, (look t.seat.faults l).faulted = false ∧ (look t.seat.faults l).deadRun = 0 ∧
        (look t.seat.faults l).liveRun = 0 ∧ (look t.seat.faults l).length = 0) ∧
      t.awaitingPage = none ∧ t.link.tx = .silent ∧ t.link.flight = none ∧ t.link.rx = .hunting ∧
      t.link.claims = [] ∧ t.link.holder = none ∧ t.link.lastHolder = 15 ∧ t.link.due = [] ∧
      t.link.rejects = 0 ∧ t.link.collisions = 0 ∧
      (∀ k, (t.entry k).state = .absent ∧ (t.entry k).kind = none ∧ (t.entry k).activity = none ∧
        (t.entry k).join = none ∧ (t.entry k).lastHeard = none ∧ (t.entry k).lastBlock = none ∧
        (t.entry k).digest = none ∧ (t.entry k).mirror = none ∧ (t.entry k).silence = 0 ∧
        (t.entry k).lock = false) ∧
      t.roster.reference = none ∧ t.roster.mirror = none ∧
      (∀ l, look t.spans.detectors l = .quiet) ∧ t.spans.table = [] ∧ t.spans.outbox = [] ∧
      t.spans.outboxDrops = 0 ∧ t.spans.custody = [] ∧
      t.rings.own.pages = [] ∧ t.rings.own.high = none ∧ t.rings.mirror.pages = [] ∧
      t.rings.mirror.high = none ∧ t.rings.runs = [] ∧ t.rings.unarchived = 0 ∧
      (∀ k, look t.rings.marks k = none ∧ look t.rings.armed k = true) ∧ t.dram = [] ∧
      storePages t.control.sizeCode = 65536 * 2 ^ szs.toNat ∧
      t.store.phase = .pause ∧ t.store.pauseTime = 0 ∧ t.store.initDone = 0 ∧ t.store.ticks = 0 ∧
      t.store.debt = 0 ∧ t.store.peak = 0 ∧ t.store.row = 0 ∧ t.store.op = none ∧
      t.store.capture = [] ∧ t.store.mirror = [] ∧ t.store.captureWrite = none ∧
      t.store.mirrorWrite = none ∧ t.store.drops = 0 ∧ t.store.reinits = 0 ∧
      t.server.queue = [] ∧ t.server.cursor = none ∧ t.server.pos = none ∧ t.server.buffer = [] ∧
      t.server.claim = none ∧ t.server.inFlight = none ∧ t.server.holds = false ∧
      t.control.id.val = ids.toNat ∧ t.control.mode = some .start ∧
      t.control.listen = 0 ∧ t.control.join = none ∧ t.control.status = .unsettled ∧
      t.control.charter = Charter.defaults ∧ t.control.digest = 0 ∧
      t.control.pendingCharter = none ∧ t.control.condition = .recess ∧
      t.control.pendingCondition = none ∧ t.control.followed = none ∧
      t.control.correction = false ∧ t.control.pendingStop = none ∧
      t.control.pendingStart = none ∧ t.notices.entries = [] ∧ t.notices.dropped = 0 ∧
      t.notices.droppedSince = 0 ∧ t.notices.carried = none ∧ t.alertN = true ∧
      t.stopN = s.stopN ∧ t.stWait = s.stWait ∧ t.freeUses = s.freeUses ∧
      t.pending = s.pending) ∧
  (∀ s : State, s.resetN = false → s.stopN = true → s.stWait = false → s.freeUses = 0 →
    s.pending = [] → exec (.resetReleased 0 0 0) s = .next State.reset) ∧
  (∀ (ids : BitVec 4) (scs : BitVec 3) (szs : BitVec 2) (s : State), s.resetN = true →
    exec (.resetReleased ids scs szs) s = .next s)

/-- While RESET_N is low every block is held in reset: a command other than the two of RESET_N and the
two of ST_WAIT changes nothing. -/
def Obligations.HeldWhileResetIsLow : Prop :=
  ∀ (c : Instr) (s : State), s.resetN = false → s.store.op = none →
    c ≠ .resetAsserted → (∀ a b d, c ≠ .resetReleased a b d) → c ≠ .stWaitRaised →
    c ≠ .stWaitReleased → exec c s = .next s

/-! ### Clock and seats -/

/-- SAMPLE_PERIOD_END (R1, R19, R21). What a data line carried is read by its bit periods: the valid flag
in bit period 1, the sample in bit periods 2 to 17, most significant bit first. In a captured slice a
present lane adds one sample, or a missing zero, until it holds 160; in any slice the divider returns to
0, the sample position advances up to 159, and the count position goes on by one. The sample periods'
lengths, the port's clocks: SP_FCK is high in bit period 0, and both are low while RESET_N is low. SP_BCK
makes one cycle in every bit period: among the period's counts taken in a ring there is one alone at which
it is low and at whose next it is high. Bit periods are 30 counts long, but for bit period 49, which takes
up trim; where the cycle rises and falls is a free value, and one cycle in a bit period 49 of 29 or 31
counts is the model's choice (log 32). -/
def Obligations.SamplePeriodTakesEachLane : Prop :=
  (∀ (lines : List (BitVec 50)) (s : State), s.resetN = true → s.seat.capturing = true →
    lines.length = 8 →
    ∃ t, exec (.samplePeriodEnd lines) s = .next t ∧
      (∀ (l : Lane) (line : BitVec 50), l.val < s.seat.laneCount → lines[l.val]? = some line →
        (look s.seat.accs l).samples.length < 160 →
        ∃ x : Half, (∀ k, k < 16 → x.getMsbD k = line.getLsbD (k + 2)) ∧
          (look t.seat.accs l).samples =
            (look s.seat.accs l).samples ++ [if line.getLsbD 1 then x else 0] ∧
          (look t.seat.accs l).missing =
            (look s.seat.accs l).missing + (if line.getLsbD 1 then 0 else 1) ∧
          (look t.seat.accs l).largest =
            max (look s.seat.accs l).largest (if line.getLsbD 1 then x.toInt.natAbs else 0)) ∧
      (∀ l : Lane, l.val < s.seat.laneCount → 160 ≤ (look s.seat.accs l).samples.length →
        look t.seat.accs l = look s.seat.accs l) ∧
      (∀ l : Lane, s.seat.laneCount ≤ l.val → look t.seat.accs l = look s.seat.accs l) ∧
      t = { s with clock := { s.clock with
                     divider := 0, samplePos := min (s.clock.samplePos + 1) 159
                     elapsed := s.clock.elapsed +
                       periodLength s.clock.applied s.clock.samplePos }
                   seat := { s.seat with accs := t.seat.accs } }) ∧
  (∀ (lines : List (BitVec 50)) (s : State), s.resetN = true → s.seat.capturing = false →
    exec (.samplePeriodEnd lines) s =
      .next { s with clock := { s.clock with
                divider := 0, samplePos := min (s.clock.samplePos + 1) 159
                elapsed := s.clock.elapsed + periodLength s.clock.applied s.clock.samplePos } }) ∧
  (∀ (lines : List (BitVec 50)) (s : State), s.resetN = true →
    s.clock.divider + 1 = periodLength s.clock.applied s.clock.samplePos →
    ∃ t, exec (.samplePeriodEnd lines) s = .next t ∧ t.clock.position = s.clock.position + 1) ∧
  (∀ (a : Int) (i : Nat),
    (periodLength a i : Int) = 1500 + (if i < a.natAbs then a.sign else 0)) ∧
  (∀ a : Int, -40 ≤ a → a ≤ 40 →
    ((List.range 160).map (periodLength a)).sum = sliceLength a ∧
      (sliceLength a : Int) = 240000 + a) ∧
  (∀ s : State, s.resetN = false → s.spFck = false ∧ s.spBck = false) ∧
  (∀ s : State, s.resetN = true → (s.spFck = true ↔ s.clock.divider < 30)) ∧
  (∀ (s : State) (b : Nat), s.resetN = true → b < 50 →
    let len := if b < 49 then 30 else periodLength s.clock.applied s.clock.samplePos - 1470
    let high (i : Nat) : Bool :=
      ({ s with clock := { s.clock with divider := 30 * b + i } } : State).spBck
    ∃ i, i < len ∧ high i = false ∧ high ((i + 1) % len) = true ∧
      ∀ j, j < len → high j = false → high ((j + 1) % len) = true → j = i)

/-- The block completed from an accumulator (R22 to R24): the level is the number of significant bits of
the largest magnitude, which a missing sample does not raise; unreached positions are missing zeros; the
two missing-sample flags follow the missing count. -/
def Obligations.BlocksFromAccumulators : Prop :=
  (∀ m, m ≤ 32768 → level m ≤ 16 ∧ m < 2 ^ level m ∧ ∀ n, n < level m → 2 ^ n ≤ m) ∧
  (∀ (a : Accumulator) (h : Half), (a.take { valid := false, sample := h }).largest = a.largest) ∧
  level 0 = 0 ∧ level 1 = 1 ∧ level 255 = 8 ∧ level 256 = 9 ∧ level 32767 = 15 ∧
  (∀ h : Half, level (magnitude h) = 16 ↔ h = 0x8000#16) ∧
  ∀ (a : Accumulator) (l : Lane) (t : Slice) (stepped unlocked : Bool) (c : Condition),
    a.samples.length ≤ 160 →
    let b := completeBlock a l t stepped unlocked c
    b.samples = a.samples ++ List.replicate (160 - a.samples.length) 0 ∧ b.samples.length = 160 ∧
    b.missing = a.missing + (160 - a.samples.length) ∧ b.level = level a.largest ∧
    (b.gap = true ↔ 1 ≤ b.missing ∧ b.missing ≤ 159) ∧ (b.dead = true ↔ b.missing = 160) ∧
    b.lane = l ∧ b.slice = t ∧ b.stepped = stepped ∧ b.unlocked = unlocked ∧ b.condition = c

/-- The lane fault state (R26, R27): ten dead blocks in a row make a lane FAULTED, the first of them known,
a hundred live ones in a row restore it, and the faulted length counts every block meanwhile. -/
def Obligations.LaneFaultRuns : Prop :=
  ∀ (f : LaneFault) (b : Block),
    (f.faulted = false → b.dead = true → f.deadRun < 9 →
      (f.update b).2.1 = .none ∧ (f.update b).1.deadRun = f.deadRun + 1 ∧
        (f.update b).1.deadStart = some (f.deadStart.getD b.slice) ∧
        (f.update b).1.faulted = false) ∧
    (f.faulted = false → b.dead = true → 9 ≤ f.deadRun →
      (f.update b).2.1 = .enteredFault ∧ (f.update b).2.2.1 = f.deadStart.getD b.slice ∧
        (f.update b).1.faulted = true ∧
        (f.update b).1.deadRun = 0 ∧ (f.update b).1.liveRun = 0 ∧ (f.update b).1.length = 0) ∧
    (f.faulted = false → b.dead = false →
      (f.update b).2.1 = .none ∧ (f.update b).1.deadRun = 0 ∧ (f.update b).1.deadStart = none ∧
        (f.update b).1.faulted = false) ∧
    (f.faulted = true → b.dead = true →
      (f.update b).2.1 = .none ∧ (f.update b).1.liveRun = 0 ∧
        (f.update b).1.length = min (f.length + 1) 65535 ∧ (f.update b).1.faulted = true) ∧
    (f.faulted = true → b.dead = false → f.liveRun < 99 →
      (f.update b).2.1 = .none ∧ (f.update b).1.liveRun = f.liveRun + 1 ∧
        (f.update b).1.length = min (f.length + 1) 65535 ∧ (f.update b).1.faulted = true) ∧
    (f.faulted = true → b.dead = false → 99 ≤ f.liveRun →
      (f.update b).2.1 = .restored ∧ (f.update b).2.2.2 = min (f.length + 1) 65535 ∧
        (f.update b).1 = LaneFault.reset)

/-- SLICE_BOUNDARY with no step plan (R1 to R3, R21): the next index, the trim copied to the applied trim,
the slice's start at count position 0, the ended slice's index and length kept; captured when the station
is then in RUN. The pins but STOP_N, the frame in flight, the DRAM and the waiting commands stay. While a
step plan stands ordinary boundaries do not occur (R14); that the command then does nothing is the model's
choice (log 3), and so is 240,000 + a as the recorded length of a slice whose plan R6 discarded after its
ordinary end had passed (log 35). The silence counts (R64): a PRESENT entry's rises
by one, and a peer whose count then exceeds loss_slices goes LOST; the other entries keep theirs. What the
boundary does to the station state, the charter, the condition, the orphans, the page and the detectors
is in the statements of those. -/
def Obligations.SliceBoundaryBeginsNextSlice : Prop :=
  (∀ (stopN : Bool) (s : State), s.resetN = true → s.clock.plan = none →
    ∃ t, exec (.sliceBoundary stopN) s = .next t ∧
      t.clock.index = s.clock.index + 1 ∧ t.clock.applied = s.clock.trim ∧
      t.clock.trim = s.clock.trim ∧ t.clock.samplePos = 0 ∧ t.clock.divider = 0 ∧
      t.clock.position = 0 ∧ t.clock.lastIndex = some s.clock.index ∧
      t.clock.lastLen = (240000 + s.clock.applied).toNat ∧ t.clock.prevLen = s.clock.lastLen ∧
      t.clock.mark = s.clock.mark ∧ t.clock.plan = none ∧
      (t.seat.capturing = true ↔ t.control.mode = some .run) ∧
      (∀ l, look t.seat.accs l = Accumulator.cleared) ∧
      t.stopN = stopN ∧ t.stWait = s.stWait ∧ t.resetN = true ∧ t.dram = s.dram ∧
      t.pending = s.pending ∧ t.link.tx = s.link.tx ∧ t.link.flight = s.link.flight ∧
      t.link.rx = s.link.rx ∧ t.link.rejects = s.link.rejects ∧
      t.link.collisions = s.link.collisions ∧
      (∀ k, (look s.roster.entries k).state = .present →
        (look t.roster.entries k).silence = (look s.roster.entries k).silence + 1 ∧
        (look t.roster.entries k).state =
          (if k ≠ s.control.id ∧
              s.control.charter.lossSlices < (look s.roster.entries k).silence + 1
            then .lost else .present)) ∧
      (∀ k, (look s.roster.entries k).state ≠ .present →
        (look t.roster.entries k).silence = (look s.roster.entries k).silence ∧
        (look t.roster.entries k).state = (look s.roster.entries k).state)) ∧
  (∀ (stopN : Bool) (s : State) (p : StepPlan), s.clock.plan = some p →
    exec (.sliceBoundary stopN) s = .next s)

/-- STEP_BOUNDARY at the planned instant (R2, R14, R15): the plan's index, the trim copied, the plan
discarded, the cut slice's length kept; silence counts as at an ordinary boundary. A realignment raises
REALIGNED, with the jump, among the notices that join the queue at the command's end; it ends in
TRACKING, or in SELF when this boundary makes this station the reference (the order of log 19: the clock's
step comes before the selections). A join alignment in START, or in LISTEN while LISTEN goes on, stays
FREE, aligned; where LISTEN ends at it, the clock leaves FREE (R7); it raises no REALIGNED, and none comes
into the queue that was not there or raised before. Without a plan
there is no step boundary (log 3). -/
def Obligations.StepBoundaryTakesPlan : Prop :=
  (∀ (stopN : Bool) (s : State) (p : StepPlan), s.resetN = true → s.clock.plan = some p →
    let u := s.boundary stopN (s.stepTo p) p.count
    let t := u.finish
    exec (.stepBoundary stopN) s = .next t ∧
      t.clock.index = p.index ∧ t.clock.applied = s.clock.trim ∧ t.clock.trim = s.clock.trim ∧
      t.clock.samplePos = 0 ∧ t.clock.position = 0 ∧ t.clock.plan = none ∧
      t.clock.lastIndex = some s.clock.index ∧ t.clock.lastLen = p.count ∧
      t.clock.mark = s.clock.mark ∧ t.stopN = stopN ∧ t.stWait = s.stWait ∧ t.resetN = true ∧
      t.dram = s.dram ∧ t.pending = s.pending ∧ t.link.tx = s.link.tx ∧
      t.link.flight = s.link.flight ∧ t.link.rx = s.link.rx ∧
      (∀ k, (look s.roster.entries k).state = .present →
        (look t.roster.entries k).silence = (look s.roster.entries k).silence + 1) ∧
      (s.clock.discipline = .realign →
        (s.roster.reference ≠ some s.control.id →
          t.clock.discipline =
            (if t.roster.reference = some s.control.id then .selfRef else .tracking)) ∧
        t.clock.goodRun = 0 ∧ t.clock.badRun = 0 ∧
        ({ raiser := .clock
           notice := {
            kind := .realigned, slice := p.index
            subject := byte (idOr255 s.roster.reference)
            detail := BitVec.ofInt 16
              (max (-32768) (min 32767 (sliceDiff p.index (s.clock.index + 1)))) } } : Raised)
          ∈ u.raised) ∧
      (s.clock.discipline = .free →
        (∀ r ∈ u.raised, r.notice.kind = .realigned → r ∈ s.raised) ∧
        (∀ n ∈ t.notices.entries, n.kind = .realigned →
          n ∈ s.notices.entries ∨ ∃ r ∈ s.raised, r.notice = n) ∧
        (s.control.mode = some .start → t.clock.discipline = .free ∧ t.clock.aligned = true) ∧
        (s.control.mode = some .listen →
          (t.control.mode = some .listen →
            t.clock.discipline = .free ∧ t.clock.aligned = true ∧
            t.control.listen = s.control.listen + 1) ∧
          (t.control.mode ≠ some .listen →
            t.clock.aligned = false ∧ t.clock.discipline =
              (if t.roster.reference = some s.control.id then .selfRef else .tracking))))) ∧
  (∀ (stopN : Bool) (s : State), s.clock.plan = none → exec (.stepBoundary stopN) s = .next s)

/-- A boundary that ends a captured slice (R24, R26, R27, R29): one page goes to capture staging, of the
ended slice, AWAITING, marked STEPPED at a step boundary, one block for each present lane and ABSENT for
the rest; each present lane's fault state takes its block. When two pages are staged the oldest whose write
has not begun is dropped and counted, and STAGING_OVERFLOW is among the notices that join (R136). The lane's
span detector takes the block's level at an ordinary boundary that nothing splits and no charter changes
(R75, R76): loud blocks from QUIET run to an onset that opens a span at its first slice, quiet blocks in
ACTIVE run to a hang that closes it. What the lane's work records (R78 to R80, R83 to R85), on a station
with one present lane: an own open and close join table and outbox, and an open of a known key is refused
(R84); a stop closes the span at the ended slice, a changed condition also continues it at the slice that
begins, a step boundary at the plan's index with cause REALIGNED, and a hanging span closes at its last loud
slice. A lane that becomes FAULTED or is restored is reported (R33) and takes its detector with it (R77),
and so does a changed detect setting of a charter that comes into force (R81). -/
def Obligations.CapturedSliceYieldsOnePage : Prop :=
  (∀ (stopN stepped : Bool) (s : State), s.resetN = true → s.seat.capturing = true →
    s.store.capture = [] → (stepped = true ↔ s.clock.plan ≠ none) →
    ∃ t p, exec (if stepped then .stepBoundary stopN else .sliceBoundary stopN) s = .next t ∧
      t.store.capture = [p] ∧
      p.slice = s.clock.index ∧ p.stepped = stepped ∧ p.outcome = .awaiting ∧ p.slots.length = 8 ∧
      ∀ l : Lane,
        let b := completeBlock (look s.seat.accs l) l s.clock.index stepped
          (decide (s.clock.discipline ≠ .locked)) s.control.condition
        p.slots[l.val]? = some (if l.val < s.seat.laneCount then some b else none) ∧
        look t.seat.faults l = (if l.val < s.seat.laneCount then
          ((look s.seat.faults l).update b).1 else look s.seat.faults l)) ∧
  (∀ (stopN stepped : Bool) (s : State) (a b : OwnPage), s.resetN = true →
    s.seat.capturing = true → s.store.capture = [a, b] → (stepped = true ↔ s.clock.plan ≠ none) →
    let dropped := if s.store.captureWrite = none then a else b
    let kept := if s.store.captureWrite = none then b else a
    ∃ (u t : State) (p : OwnPage),
      exec (if stepped then .stepBoundary stopN else .sliceBoundary stopN) s = .next t ∧
      t = u.finish ∧ u.notices = s.notices ∧ p.slice = s.clock.index ∧ p.outcome = .awaiting ∧
      t.store.capture = [if kept.outcome = .awaiting then { kept with outcome := .unsent } else kept,
        p] ∧
      t.store.drops = s.store.drops + 1 ∧
      ({ raiser := .store
         notice := { kind := .stagingOverflow, slice := t.clock.index, subject := 0
                     detail := sliceDetail dropped.slice } } : Raised) ∈ u.raised) ∧
  (∀ (s : State) (l : Lane), s.resetN = true → s.clock.plan = none →
    s.seat.capturing = true → l.val < s.seat.laneCount → s.control.mode = some .run →
    s.control.pendingStop = none → s.control.pendingCharter = none →
    (∀ c, s.control.pendingCondition = some c → c = s.control.condition) →
    ((look s.seat.faults l).update (completeBlock (look s.seat.accs l) l s.clock.index false
      (decide (s.clock.discipline ≠ .locked)) s.control.condition)).2.1 = .none →
    let i := s.clock.index
    let v := level (look s.seat.accs l).largest
    let c := s.control.charter
    ∃ t, exec (.sliceBoundary true) s = .next t ∧
      let d := look t.spans.detectors l
      match look s.spans.detectors l with
      | .disabled => d = .disabled
      | .faulted => d = .faulted
      | .quiet =>
        (v < c.tOpen → d = .quiet) ∧ (c.tOpen ≤ v → 1 < c.nOnset → d = .onset 1 i) ∧
        (c.tOpen ≤ v → c.nOnset ≤ 1 → entryOf s.spans.table (s.ownKey l i) = none →
          d = .active i (s.ownKey l i))
      | .onset n u =>
        (v < c.tOpen → d = .quiet) ∧ (c.tOpen ≤ v → n + 1 < c.nOnset → d = .onset (n + 1) u) ∧
        (c.tOpen ≤ v → c.nOnset ≤ n + 1 → entryOf s.spans.table (s.ownKey l u) = none →
          d = .active i (s.ownKey l u))
      | .active last k =>
        (c.tClose ≤ v → d = .active i k) ∧ (v < c.tClose → 1 < c.nHang → d = .hang 1 last k) ∧
        (v < c.tClose → c.nHang ≤ 1 → d = .quiet)
      | .hang n last k =>
        (c.tClose ≤ v → d = .active i k) ∧
        (v < c.tClose → n + 1 < c.nHang → d = .hang (n + 1) last k) ∧
        (v < c.tClose → c.nHang ≤ n + 1 → d = .quiet)) ∧
  (∀ (stopN : Bool) (s : State), s.resetN = true → s.clock.plan = none →
    s.seat.capturing = true → s.seat.laneCount = 1 → s.control.mode = some .run →
    s.control.pendingCharter = none → s.spans.table.length < 160 → s.spans.outbox.length < 63 →
    s.spans.table.Pairwise (fun a b => a.key ≠ b.key) →
    (∀ x ∈ s.spans.table, ∀ n u, x.status ≠ .orphaned n u) →
    (∀ k, k ≠ s.control.id → (look s.roster.entries k).state = .present →
      (look s.roster.entries k).silence < s.control.charter.lossSlices) →
    ((look s.seat.faults 0).update (completeBlock (look s.seat.accs 0) 0 s.clock.index false
      (decide (s.clock.discipline ≠ .locked)) s.control.condition)).2.1 = .none →
    let i := s.clock.index
    let v := level (look s.seat.accs 0).largest
    let c := s.control.charter
    let seat := c.seat (roomSeat s.control.id 0)
    let stops : Prop := s.control.pendingStop ≠ none ∨ stopN = false
    let changed : Prop := ∃ x, s.control.pendingCondition = some x ∧ x ≠ s.control.condition
    let closed (k : SpanKey) (u : Slice) (cause : CloseCause) : List SpanEntry :=
      s.spans.table.map fun x => if x.key = k then
        { x with
          status := .closed (if before u x.key.openSlice then x.key.openSlice else u) cause
          announcedBy := s.control.id } else x
    let announced (t : State) (k : SpanKey) (u : Slice) (cause : CloseCause) (e : SpanEntry) : Prop :=
      t.spans.table = closed k u cause ∧
      t.spans.outbox = s.spans.outbox ++ [{
        key := e.key, role := e.role, condition := e.condition, concurrency := e.concurrency
        continued := e.continued, time := e.time
        form := .closed (if before u e.key.openSlice then e.key.openSlice else u) cause }] ∧
      look t.spans.detectors 0 = .quiet
    ∃ t, exec (.sliceBoundary stopN) s = .next t ∧
      (∀ n u, look s.spans.detectors 0 = .onset n u → c.tOpen ≤ v → c.nOnset ≤ n + 1 →
        ¬ stops → ¬ changed → entryOf s.spans.table (s.ownKey 0 u) = none →
        ∃ e, t.spans.table = s.spans.table ++ [e] ∧ t.spans.outbox = s.spans.outbox ++ [e.item] ∧
          e.key = { owner := s.control.id, lane := 0, openSlice := u } ∧ e.role = seat.role ∧
          e.status = .opened ∧ e.condition = s.control.condition ∧ e.continued = false ∧
          e.concurrency = s.spans.table.countP SpanEntry.live ∧ e.announcedBy = s.control.id ∧
          e.time = s.clock.timeOfDay u ∧ (seat.link = none → e.link = none) ∧
          (∀ m x more rest, seat.link = some m → s.spans.table = more ++ x :: rest →
            x.status = .opened → seatOf x.key = m.val → x.condition = s.control.condition →
            (∀ y ∈ more, ¬ (y.status = .opened ∧ seatOf y.key = m.val ∧
              y.condition = s.control.condition)) →
            e.link = some { owner := byte x.key.owner.val, lane := byte x.key.lane.val
                            openSlice := x.key.openSlice })) ∧
      (∀ n u, look s.spans.detectors 0 = .onset n u → c.tOpen ≤ v → c.nOnset ≤ n + 1 →
        entryOf s.spans.table { owner := s.control.id, lane := 0, openSlice := u } ≠ none →
        t.spans.table = s.spans.table ∧ t.spans.outbox = s.spans.outbox ∧
          look t.spans.detectors 0 = .quiet) ∧
      (∀ n last k e, look s.spans.detectors 0 = .hang n last k → entryOf s.spans.table k = some e →
        v < c.tClose → c.nHang ≤ n + 1 → announced t k last .silence e) ∧
      (∀ n last k e, look s.spans.detectors 0 = .hang n last k → entryOf s.spans.table k = some e →
        v < c.tClose → n + 1 < c.nHang → (stops → announced t k last .stopped e) ∧
        (¬ stops → changed → announced t k last .condition e)) ∧
      (∀ last k e, look s.spans.detectors 0 = .active last k → entryOf s.spans.table k = some e →
        c.tClose ≤ v → (stops → announced t k i .stopped e) ∧
        (¬ stops → changed →
          entryOf s.spans.table { owner := s.control.id, lane := 0, openSlice := i + 1 } ≠ none →
          announced t k i .condition e) ∧
        (¬ stops → ∀ x, s.control.pendingCondition = some x → x ≠ s.control.condition →
          entryOf s.spans.table { owner := s.control.id, lane := 0, openSlice := i + 1 } = none →
          ∃ f, t.spans.table = closed k i .condition ++ [f] ∧
            f.key = { owner := s.control.id, lane := 0, openSlice := i + 1 } ∧
            f.status = .opened ∧ f.continued = true ∧ f.condition = x ∧ f.role = seat.role ∧
            f.time = s.clock.timeOfDay (i + 1) ∧
            (∃ y, t.spans.outbox = s.spans.outbox ++ [y, f.item] ∧ y.key = e.key ∧
              y.form = .closed (if before i e.key.openSlice then e.key.openSlice else i)
                .condition) ∧
            look t.spans.detectors 0 = .active (i + 1) f.key))) ∧
  (∀ (p : StepPlan) (s : State), s.resetN = true → s.clock.plan = some p →
    s.seat.capturing = true → s.seat.laneCount = 1 → s.control.mode = some .run →
    s.control.pendingStop = none → s.control.pendingCharter = none →
    s.spans.table.length < 160 → s.spans.outbox.length < 63 →
    s.spans.table.Pairwise (fun a b => a.key ≠ b.key) →
    (∀ x ∈ s.spans.table, ∀ n u, x.status ≠ .orphaned n u) →
    (∀ k, k ≠ s.control.id → (look s.roster.entries k).state = .present →
      (look s.roster.entries k).silence < s.control.charter.lossSlices) →
    ((look s.seat.faults 0).update (completeBlock (look s.seat.accs 0) 0 s.clock.index true
      (decide (s.clock.discipline ≠ .locked)) s.control.condition)).2.1 = .none →
    let v := level (look s.seat.accs 0).largest
    let c := s.control.charter
    let next : SpanKey := { owner := s.control.id, lane := 0, openSlice := p.index }
    let endOf (u : Slice) (k : SpanKey) : Slice := if before u k.openSlice then k.openSlice else u
    let closed (k : SpanKey) (u : Slice) : List SpanEntry :=
      s.spans.table.map fun x => if x.key = k then
        { x with status := .closed (endOf u x.key) .realigned, announcedBy := s.control.id } else x
    ∃ t, exec (.stepBoundary true) s = .next t ∧
      (∀ last k e, look s.spans.detectors 0 = .active last k → entryOf s.spans.table k = some e →
        c.tClose ≤ v → ∃ y, y.key = e.key ∧
          y.form = .closed (endOf s.clock.index e.key) .realigned ∧
          (entryOf s.spans.table next = none → ∃ f,
            t.spans.table = closed k s.clock.index ++ [f] ∧
            t.spans.outbox = s.spans.outbox ++ [y, f.item] ∧ f.key = next ∧ f.status = .opened ∧
            f.continued = true ∧
            f.condition = s.control.pendingCondition.getD s.control.condition ∧
            f.announcedBy = s.control.id ∧ f.time = s.clock.timeOfDay p.index ∧
            look t.spans.detectors 0 = .active p.index next) ∧
          (entryOf s.spans.table next ≠ none →
            t.spans.table = closed k s.clock.index ∧ t.spans.outbox = s.spans.outbox ++ [y] ∧
            look t.spans.detectors 0 = .quiet)) ∧
      (∀ n last k e, look s.spans.detectors 0 = .hang n last k → entryOf s.spans.table k = some e →
        v < c.tClose → n + 1 < c.nHang → ∃ y, y.key = e.key ∧
          y.form = .closed (endOf last e.key) .realigned ∧ t.spans.table = closed k last ∧
          t.spans.outbox = s.spans.outbox ++ [y] ∧ look t.spans.detectors 0 = .quiet)) ∧
  (∀ (stopN : Bool) (s : State) (l : Lane), s.resetN = true → s.clock.plan = none →
    l.val < s.seat.laneCount →
    let u := s.boundary stopN s.ordinary (sliceLength s.clock.applied)
    ∃ t, exec (.sliceBoundary stopN) s = .next t ∧ t = u.finish ∧
      (s.seat.capturing = true →
        let f := (look s.seat.faults l).update (completeBlock (look s.seat.accs l) l s.clock.index
          false (decide (s.clock.discipline ≠ .locked)) s.control.condition)
        let report (kind : NoticeKind) (detail : Half) : Raised :=
          { raiser := .seat
            notice := { kind := kind, slice := s.clock.index + 1
                        subject := byte (8 * s.control.id.val + l.val), detail := detail } }
        (f.2.1 = .enteredFault → report .laneFault (sliceDetail f.2.2.1) ∈ u.raised) ∧
        (f.2.1 = .restored → report .laneRestored (BitVec.ofNat 16 f.2.2.2) ∈ u.raised)) ∧
      (s.seat.capturing = true → s.control.pendingCharter = none →
        let change := ((look s.seat.faults l).update (completeBlock (look s.seat.accs l) l
          s.clock.index false (decide (s.clock.discipline ≠ .locked)) s.control.condition)).2.1
        (change = .enteredFault → look s.spans.detectors l ≠ .disabled →
          look t.spans.detectors l = .faulted) ∧
        (change = .restored → look s.spans.detectors l = .faulted →
          look t.spans.detectors l = .quiet)) ∧
      (∀ p, s.control.pendingCharter = some p →
        let seat := roomSeat s.control.id l
        ((s.control.charter.seat seat).detect = true → (p.charter.seat seat).detect = false →
          look t.spans.detectors l = .disabled) ∧
        ((s.control.charter.seat seat).detect = false → (p.charter.seat seat).detect = true →
          look t.spans.detectors l =
            (if (look t.seat.faults l).faulted then .faulted else .quiet))))

/-- The trim update (R10), for a measurement that does not enter REALIGN; it is first applied at the
next slice boundary. -/
def Obligations.TrimUpdate : Prop :=
  (∀ e : Int, 8 ≤ e.natAbs → correction e = Int.tdiv e 8) ∧
  (∀ e : Int, 1 ≤ e → e ≤ 7 → correction e = 1) ∧
  (∀ e : Int, -7 ≤ e → e ≤ -1 → correction e = -1) ∧
  correction 0 = 0 ∧
  (∀ t e : Int, newTrim t e = max (-40) (min 40 (t + correction e))) ∧
  correction 42 = 5 ∧ correction 4 = 1 ∧ correction (-13) = -1 ∧ correction (-62) = -7 ∧
  newTrim 38 60 = 40 ∧
  (∀ (s : State) (l : LeadIn) (r : StationId) (h : Slice),
    h = (s.clock.measure l r).2 → (s.clock.measure l r).1.natAbs ≤ 90 →
    (s.measureFrame l r h).clock.trim = newTrim s.clock.trim (s.clock.measure l r).1 ∧
    (s.measureFrame l r h).clock.applied = s.clock.applied) ∧
  (∀ (stopN : Bool) (s : State), s.resetN = true → s.clock.plan = none →
    ∃ t, exec (.sliceBoundary stopN) s = .next t ∧ t.clock.applied = s.clock.trim)

/-- The error and the matched slice (R8), for a frame whose lead-in began at count position n of the slice
in progress, or of the slice that ended last: d = n - (1,200 + 10,800 r). -/
def Obligations.MeasuredError : Prop :=
  ∀ (c : Clock) (t : Slice) (n : Nat) (r : StationId),
    let d : Int := (n : Int) - (1200 + 10800 * (r.val : Int))
    let m (b : Nat) := c.measure { slice := t, count := n, boundaries := b } r
    (-120000 ≤ d → d ≤ 119999 → m 0 = (d, t) ∧ m 1 = (d, t)) ∧
    (120000 ≤ d → (-240000 ≤ c.applied → m 0 = (d - (240000 + c.applied), t + 1)) ∧
      m 1 = (d - (c.lastLen : Int), t + 1)) ∧
    (d < -120000 → m 0 = (d + (c.lastLen : Int), t - 1) ∧ m 1 = (d + (c.prevLen : Int), t - 1))

/-- What a measurement does to the discipline (R9 to R11, R18). A differing index or an error above 90
counts enters REALIGN: runs 0, trim, applied trim and step plan unchanged, ALIGNMENT_LOST and no other
notice, whatever the state before; its detail is 0xFFFF for a differing index, also where the error is above
90 counts too (the model's choice, log 34). Any other measurement updates the trim, does not enter REALIGN,
and counts in the run of the state: the eighth good one in TRACKING enters LOCKED and raises LOCKED, the
fourth bad one in LOCKED enters TRACKING and raises UNLOCKED, each with the reference as subject and the new
trim as detail. No other of them raises a notice, and nothing else of the state changes. -/
def Obligations.MeasurementOutcome : Prop :=
  ∀ (s : State) (l : LeadIn) (r : StationId) (h : Slice),
    let e := (s.clock.measure l r).1
    let u := s.measureFrame l r h
    let trimmed : Clock := { s.clock with trim := newTrim s.clock.trim e }
    let told (kind : NoticeKind) (detail : Half) : List Raised :=
      s.raised ++ [{
        raiser := .clock
        notice := { kind := kind, slice := s.clock.index, subject := byte r.val, detail := detail } }]
    ((h ≠ (s.clock.measure l r).2 ∨ 90 < e.natAbs) →
      u = { s with
        clock := { s.clock with discipline := .realign, goodRun := 0, badRun := 0 }
        raised := told .alignmentLost (if h ≠ (s.clock.measure l r).2 then 0xFFFF
          else BitVec.ofNat 16 (min e.natAbs 65534)) }) ∧
    (h = (s.clock.measure l r).2 → e.natAbs ≤ 90 →
      (s.clock.discipline = .tracking →
        (e.natAbs ≤ 24 → s.clock.goodRun < 7 →
          u = { s with clock := { trimmed with goodRun := s.clock.goodRun + 1 } }) ∧
        (e.natAbs ≤ 24 → 7 ≤ s.clock.goodRun →
          u = { s with
            clock := { trimmed with discipline := .locked, goodRun := 0, badRun := 0 }
            raised := told .locked (BitVec.ofInt 16 (newTrim s.clock.trim e)) }) ∧
        (24 < e.natAbs → u = { s with clock := { trimmed with goodRun := 0 } })) ∧
      (s.clock.discipline = .locked →
        (48 < e.natAbs → s.clock.badRun < 3 →
          u = { s with clock := { trimmed with badRun := s.clock.badRun + 1 } }) ∧
        (48 < e.natAbs → 3 ≤ s.clock.badRun →
          u = { s with
            clock := { trimmed with discipline := .tracking, goodRun := 0, badRun := 0 }
            raised := told .unlocked (BitVec.ofInt 16 (newTrim s.clock.trim e)) }) ∧
        (e.natAbs ≤ 48 → u = { s with clock := { trimmed with badRun := 0 } })))

/-- The time of day of a slice under a held mark, and its place in an own span's entry (R17). -/
def Obligations.TimeOfDayOfSlice : Prop :=
  (∀ (m : TimeMark) (s : Slice),
    let total : Int := (m.ms.toNat : Int) + 10 * sliceDiff s m.slice
    ((timeUnder m s).ms.toNat : Int) = total % 86400000 ∧
    (timeUnder m s).day = m.day + BitVec.ofInt 16 (total / 86400000)) ∧
  (∀ (c : Clock) (s : Slice), c.mark = none → c.timeOfDay s = none) ∧
  (∀ (c : Clock) (m : TimeMark) (s : Slice), c.mark = some m →
    c.timeOfDay s = some (timeUnder m s)) ∧
  (∀ (s : State) (l : Lane) (t : Slice) (c : Condition) (b : Bool),
    (s.newEntry l t c b).time = s.clock.timeOfDay t) ∧
  timeUnder { slice := 1500050, day := 19800, ms := 86399990 } 1500050 =
    { day := 19800, ms := 86399990 } ∧
  timeUnder { slice := 1500050, day := 19800, ms := 86399990 } 1500051 = { day := 19801, ms := 0 } ∧
  timeUnder { slice := 1500050, day := 19800, ms := 86399990 } 1500151 =
    { day := 19801, ms := 1000 } ∧
  timeUnder { slice := 1500050, day := 19800, ms := 86399990 } 1500049 =
    { day := 19800, ms := 86399980 } ∧
  (∀ e : Slice, timeUnder { slice := e, day := 0, ms := 5 } (e - 1) =
    { day := 65535, ms := 86399995 })

/-! ### Roster -/

/-- PEER_LOST (R65): every peer whose silence count exceeds loss_slices goes LOST and keeps every field
it held; every other entry stays; the lost peers' recall requests leave the queue; PEER_LOST is among the
notices that join the queue at the command's end. Both selections are computed afresh (R68), a changed one
is reported (R72), and in RUN and IDLE the clock follows a changed reference (R6), with UNLOCKED when it was
LOCKED (R18). With no key twice in the table: a lost peer's OPEN
spans are ORPHANED, at its last block's slice (R95; 'announced by' stays, log 36); those of a lost mirror
source, the ORPHANED ones too, are closed at the end of its OPEN run, if there is one, and a custody
record holds their CLOSE items (R97, R98), and CUSTODY_TAKEN tells their number; every other entry
stays. -/
def Obligations.PeerLostKeepsFields : Prop :=
  ∀ s : State, s.resetN = true →
    let lost (k : StationId) : Prop := k ≠ s.control.id ∧
      (look s.roster.entries k).state = .present ∧
      s.control.charter.lossSlices < (look s.roster.entries k).silence
    let endOf (e : SpanEntry) : Slice :=
      (look s.roster.entries e.key.owner).lastBlock.getD e.key.openSlice
    let runEndOf (e : SpanEntry) : Slice :=
      match openRunOf s.rings.runs e.key.owner with
      | some r => r.last
      | none => endOf e
    let u := s.losePeers.recompute
    let t := u.finish
    let told (raiser : Raiser) (kind : NoticeKind) (subject : Byte) (detail : Half) : Raised :=
      { raiser := raiser
        notice := { kind := kind, slice := s.clock.index, subject := subject, detail := detail } }
    exec .peerLost s = .next t ∧
      (∀ k, k ≠ s.control.id → (look s.roster.entries k).state = .present →
        s.control.charter.lossSlices < (look s.roster.entries k).silence →
        look t.roster.entries k = { look s.roster.entries k with state := .lost } ∧
        told .roster .peerLost (byte k.val)
          (sliceDetail ((look s.roster.entries k).lastHeard.getD 0)) ∈ u.raised) ∧
      (∀ k, (k = s.control.id ∨ (look s.roster.entries k).state ≠ .present ∨
          (look s.roster.entries k).silence ≤ s.control.charter.lossSlices) →
        look t.roster.entries k = look s.roster.entries k) ∧
      (∀ q ∈ t.server.queue, q.id.requester ≠ s.control.id → ¬ lost q.id.requester) ∧
      t.roster.reference = t.chooseReference ∧ t.roster.mirror = t.chooseMirror ∧
      (t.roster.reference ≠ s.roster.reference →
        told .roster .referenceChanged (byte (idOr255 t.roster.reference))
          (BitVec.ofNat 16 (idOr255 s.roster.reference)) ∈ u.raised ∧
        (s.active = true → s.clock.discipline = .locked →
          told .clock .unlocked (byte (idOr255 s.roster.reference))
            (BitVec.ofInt 16 s.clock.trim) ∈ u.raised)) ∧
      (t.roster.mirror ≠ s.roster.mirror →
        told .roster .mirrorSourceChanged (byte (idOr255 t.roster.mirror))
          (BitVec.ofNat 16 (idOr255 s.roster.mirror)) ∈ u.raised) ∧
      ((s.active = false ∨ t.roster.reference = s.roster.reference) → t.clock = s.clock) ∧
      (s.active = true → t.roster.reference ≠ s.roster.reference →
        t.clock =
          (if s.clock.discipline = .free then s.clock
          else if t.roster.reference = some s.control.id then
            (if s.clock.discipline = .selfRef then s.clock
            else { s.clock with
              discipline := .selfRef, goodRun := 0, badRun := 0
              plan := if s.clock.discipline = .realign then none else s.clock.plan })
          else if s.clock.discipline = .realign then { s.clock with plan := none }
          else { s.clock with discipline := .tracking, goodRun := 0, badRun := 0 })) ∧
      (s.spans.table.Pairwise (fun a b => a.key ≠ b.key) →
        t.spans.table.length = s.spans.table.length ∧
        ∀ (i : Nat) (e : SpanEntry), s.spans.table[i]? = some e →
          (lost e.key.owner → s.roster.mirror ≠ some e.key.owner → e.status = .opened →
            t.spans.table[i]? = some { e with status := .orphaned 0 (endOf e) }) ∧
          (lost e.key.owner → s.roster.mirror = some e.key.owner → e.live = true →
            t.spans.table[i]? = some { e with
              status := .closed
                (if before (runEndOf e) e.key.openSlice then e.key.openSlice else runEndOf e)
                .stationLost
              announcedBy := s.control.id }) ∧
          ((¬ lost e.key.owner ∨ e.live = false ∨
              (s.roster.mirror ≠ some e.key.owner ∧ e.status ≠ .opened)) →
            t.spans.table[i]? = some e)) ∧
      (∀ k, s.roster.mirror = some k → lost k → ∃ r, t.spans.custody.getLast? = some r ∧
        told .spans .custodyTaken (byte k.val) (BitVec.ofNat 16
          (s.spans.table.countP fun x => x.live && decide (x.key.owner = k))) ∈ u.raised ∧
        r.peer = k ∧ r.join = (look s.roster.entries k).join ∧
        (∀ x ∈ t.spans.custody.dropLast, x ∈ s.spans.custody ∧ x.peer ≠ k) ∧
        (∀ x, x ∈ r.items ↔ ∃ e ∈ s.spans.table, e.live = true ∧ e.key.owner = k ∧
          x = (e.close (runEndOf e) .stationLost s.control.id).item)) ∧
      ((∀ k, s.roster.mirror = some k → ¬ lost k) → t.spans.custody = s.spans.custody ∧
        t.spans.outbox = s.spans.outbox) ∧
      t = { s with
        clock := t.clock, roster := t.roster, spans := t.spans, rings := t.rings
        store := t.store, server := t.server
        control := { s.control with correction := t.control.correction }
        notices := t.notices, freeUses := t.freeUses, raised := [] }

/-- The two selections (R66, R67). The timing reference is the lowest ID among the candidates; the
mirror source is the largest candidate below the own ID, else the largest above it, and none when m is 0
or the station is not in RUN or IDLE. A recomputation takes both, and raises what R68, R6, R18 and R72 give in
their order: REFERENCE_CHANGED, the clock's UNLOCKED when LOCKED in RUN or IDLE, MIRROR_SOURCE_CHANGED; where
both selections stay, nothing. -/
def Obligations.SelectionsFollowRoster : Prop :=
  ∀ s : State,
    s.recompute.roster = { s.roster with
      reference := s.chooseReference, mirror := s.chooseMirror } ∧
    (let told (raiser : Raiser) (kind : NoticeKind) (subject : Nat) (detail : Half) : List Raised :=
      [{ raiser := raiser
         notice := { kind := kind, slice := s.clock.index, subject := byte subject
                     detail := detail } }]
     s.recompute.raised = s.raised ++
      (if s.chooseReference = s.roster.reference then []
      else told .roster .referenceChanged (idOr255 s.chooseReference)
          (BitVec.ofNat 16 (idOr255 s.roster.reference)) ++
        (if s.active = true ∧ s.clock.discipline = .locked then
          told .clock .unlocked (idOr255 s.roster.reference) (BitVec.ofInt 16 s.clock.trim)
        else [])) ++
      (if s.chooseMirror = s.roster.mirror then []
      else told .roster .mirrorSourceChanged (idOr255 s.chooseMirror)
        (BitVec.ofNat 16 (idOr255 s.roster.mirror)))) ∧
    (∀ k, s.chooseReference = some k →
      (s.entry k).candidate = true ∧ ∀ j, j < k → (s.entry j).candidate = false) ∧
    (s.chooseReference = none → ∀ k, (s.entry k).candidate = false) ∧
    ((s.entry s.control.id).candidate = true ↔ s.active = true) ∧
    (∀ k, k ≠ s.control.id → ((s.entry k).candidate = true ↔
      (look s.roster.entries k).state = .present ∧ (look s.roster.entries k).kind = some .capture ∧
        (look s.roster.entries k).activity ≠ none)) ∧
    ((s.control.charter.mirrorShare = 0 ∨ s.active = false) → s.chooseMirror = none) ∧
    (∀ k, s.chooseMirror = some k → k ≠ s.control.id ∧ (s.entry k).candidate = true ∧
      (k < s.control.id → ∀ j, k < j → j < s.control.id → (s.entry j).candidate = false) ∧
      (s.control.id < k → (∀ j, j < s.control.id → (s.entry j).candidate = false) ∧
        ∀ j, k < j → (s.entry j).candidate = false)) ∧
    (0 < s.control.charter.mirrorShare → s.active = true → s.chooseMirror = none →
      ∀ j, j ≠ s.control.id → (s.entry j).candidate = false)

/-! ### Spans -/

/-- ORPHAN_TIMEOUT (R96): every entry whose orphan count has reached orphan_slices is closed at its
orphan end, cause STATION_LOST, announced by this station; nothing joins the outbox, and nothing else
changes. At a slice boundary that ends a slice not captured, with no peer lost and no charter pending, the
orphan counts rise by one first, and no other entry changes. -/
def Obligations.OrphanTimeoutCloses : Prop :=
  (∀ s : State, s.resetN = true →
    ∃ t, exec .orphanTimeout s = .next t ∧
      t = { s with spans := { s.spans with table := t.spans.table } } ∧
      t.spans.table.length = s.spans.table.length ∧
      ∀ (i : Nat) (e : SpanEntry), s.spans.table[i]? = some e →
        ((∃ n u, e.status = .orphaned n u ∧ s.control.charter.orphanSlices ≤ n ∧
          t.spans.table[i]? = some { e with
            status := .closed (if before u e.key.openSlice then e.key.openSlice else u) .stationLost
            announcedBy := s.control.id }) ∨
        ((∀ n u, e.status = .orphaned n u → n < s.control.charter.orphanSlices) ∧
          t.spans.table[i]? = some e))) ∧
  (∀ (stopN : Bool) (s : State), s.resetN = true → s.clock.plan = none →
    s.seat.capturing = false → s.control.pendingCharter = none →
    (∀ k, k ≠ s.control.id → (look s.roster.entries k).state = .present →
      (look s.roster.entries k).silence < s.control.charter.lossSlices) →
    ∃ t, exec (.sliceBoundary stopN) s = .next t ∧
      t.spans.table.length = s.spans.table.length ∧ t.spans.outbox = s.spans.outbox ∧
      ∀ (i : Nat) (e : SpanEntry), s.spans.table[i]? = some e →
        (∀ n u, e.status = .orphaned n u → s.control.charter.orphanSlices ≤ n + 1 →
          t.spans.table[i]? = some { e with
            status := .closed (if before u e.key.openSlice then e.key.openSlice else u) .stationLost
            announcedBy := s.control.id }) ∧
        (∀ n u, e.status = .orphaned n u → n + 1 < s.control.charter.orphanSlices →
          t.spans.table[i]? = some { e with status := .orphaned (n + 1) u }) ∧
        ((∀ n u, e.status ≠ .orphaned n u) → t.spans.table[i]? = some e))

/-- OPEN_ITEM (R89, R91). From its owner, of an unknown key, with room in the table, it is inserted as
OPEN with its fields: at once when its seat has no OPEN or ORPHANED entry, and after closing that entry
as SUPERSEDED at the slice before its own when the entry opened earlier. Into a full table it is inserted
after an eviction (R86): of the CLOSED entry that ended first among those the owner's archive mark covers,
or, when there is none, of the CLOSED entry that ended first, with SPAN_EVICTED. Of another owner than its
sender, of a known key, or of a seat whose live entry opened no earlier, it is ignored. -/
def Obligations.OpenItemApplied : Prop :=
  (∀ (k : StationId) (i : SpanItem) (link : Option LinkKey) (s : State), s.resetN = true →
    k ≠ s.control.id → i.key.owner = k → i.form = .opened link → s.raised = [] →
    entryOf s.spans.table i.key = none →
    let e : SpanEntry :=
      { key := i.key, role := i.role, status := .opened, condition := i.condition, link := link
        concurrency := i.concurrency, continued := i.continued, announcedBy := k, time := i.time }
    (liveOfSeat s.spans.table (seatOf i.key) = none → s.spans.table.length < 160 →
      exec (.openItem k i) s =
        .next { s with spans := { s.spans with table := s.spans.table ++ [e] } }) ∧
    (∀ old, liveOfSeat s.spans.table (seatOf i.key) = some old → s.spans.table.length < 160 →
      before old.key.openSlice i.key.openSlice = true →
      exec (.openItem k i) s = .next { s with spans := { s.spans with
        table := (s.spans.table.map (fun x =>
          if x.key = old.key then
            { x with
              status := .closed
                (if before (i.key.openSlice - 1) x.key.openSlice then x.key.openSlice
                  else i.key.openSlice - 1) .superseded
              announcedBy := s.control.id }
          else x)) ++ [e] } }) ∧
    (liveOfSeat s.spans.table (seatOf i.key) = none → s.spans.table.length = 160 →
      ∀ (v : SpanEntry) (u : Slice) (c : CloseCause), v ∈ s.spans.table → v.status = .closed u c →
      ((s.rings.unarchivedSlice v.key.owner u = false →
        (∀ x ∈ s.spans.table, x ≠ v → ∀ w d, x.status = .closed w d →
          s.rings.unarchivedSlice x.key.owner w = false → before u w = true) →
        exec (.openItem k i) s = .next { s with spans := { s.spans with
          table := s.spans.table.filter (fun x => x.key ≠ v.key) ++ [e] } }) ∧
      ((∀ x ∈ s.spans.table, ∀ w d, x.status = .closed w d →
          s.rings.unarchivedSlice x.key.owner w = true ∧ (x ≠ v → before u w = true)) →
        exec (.openItem k i) s = .next { s with
          spans := { s.spans with
            table := s.spans.table.filter (fun x => x.key ≠ v.key) ++ [e] }
          notices := (s.notices.join s.windowInFlight
            { kind := .spanEvicted, slice := s.clock.index, subject := byte (seatOf v.key)
              detail := BitVec.ofNat 16 v.announcedBy.val }) })))) ∧
  (∀ (k : StationId) (i : SpanItem) (s : State), s.raised = [] →
    (i.key.owner ≠ k ∨ entryOf s.spans.table i.key ≠ none ∨
      ∃ e, liveOfSeat s.spans.table (seatOf i.key) = some e ∧
        before e.key.openSlice i.key.openSlice = false) →
    exec (.openItem k i) s = .next s)

/-- CLOSE_ITEM (R85, R92, R94). An OPEN or ORPHANED entry becomes CLOSED with the item's end slice, no
earlier than its open slice, and cause, announced by the sender; a CLOSED one stays as it is; an unknown
key is inserted as CLOSED. When the span is this station's own and its detector holds it, a HANG
detector goes QUIET and an ACTIVE one opens a CONTINUED span at the slice after the end, with the seat's
role, the time of day and the number of live spans (R83), announced through the outbox; a full outbox
discards its oldest item and counts it (R88). -/
def Obligations.CloseItemApplied : Prop :=
  (∀ (k : StationId) (i : SpanItem) (u : Slice) (c : CloseCause) (s : State),
    s.resetN = true → k ≠ s.control.id → i.form = .closed u c → s.raised = [] →
    let v := if before u i.key.openSlice then i.key.openSlice else u
    let closed := s.spans.table.map (fun x =>
      if x.key = i.key then { x with status := .closed v c, announcedBy := k } else x)
    (∀ e, i.key.owner ≠ s.control.id → entryOf s.spans.table i.key = some e → e.live = true →
      exec (.closeItem k i) s = .next { s with spans := { s.spans with table := closed } }) ∧
    (∀ e, entryOf s.spans.table i.key = some e → e.live = false →
      exec (.closeItem k i) s = .next s) ∧
    (entryOf s.spans.table i.key = none → s.spans.table.length < 160 →
      exec (.closeItem k i) s = .next { s with spans := { s.spans with
        table := s.spans.table ++ [{
          key := i.key, role := i.role, status := .closed v c, condition := i.condition
          link := none, concurrency := i.concurrency, continued := i.continued
          announcedBy := k, time := i.time }] } }) ∧
    (∀ e n last, i.key.owner = s.control.id → entryOf s.spans.table i.key = some e →
      e.live = true → look s.spans.detectors i.key.lane = .hang n last i.key →
      exec (.closeItem k i) s = .next { s with spans := { s.spans with
        table := closed, detectors := put s.spans.detectors i.key.lane .quiet } }) ∧
    (∀ e last, i.key.owner = s.control.id → entryOf s.spans.table i.key = some e →
      e.live = true → look s.spans.detectors i.key.lane = .active last i.key →
      s.spans.table.length < 160 →
      let key : SpanKey := { owner := s.control.id, lane := i.key.lane, openSlice := v + 1 }
      entryOf s.spans.table key = none →
      ∃ t f, exec (.closeItem k i) s = .next t ∧ t.spans.table = closed ++ [f] ∧ f.key = key ∧
        f.status = .opened ∧ f.continued = true ∧ f.condition = e.condition ∧
        f.announcedBy = s.control.id ∧ f.time = s.clock.timeOfDay (v + 1) ∧
        f.role = (s.control.charter.seat (roomSeat s.control.id i.key.lane)).role ∧
        f.concurrency = closed.countP SpanEntry.live ∧
        (s.spans.outbox.length < 64 →
          t.spans.outbox = s.spans.outbox ++ [f.item] ∧
          t.spans.outboxDrops = s.spans.outboxDrops ∧ t.notices = s.notices) ∧
        (∀ d rest, s.spans.outbox = d :: rest → 64 ≤ s.spans.outbox.length →
          t.spans.outbox = rest ++ [f.item] ∧
          t.spans.outboxDrops = s.spans.outboxDrops + 1 ∧
          t.notices = s.notices.join s.windowInFlight
            { kind := .outboxOverflow, slice := s.clock.index, subject := byte (seatOf d.key)
              detail := sliceDetail d.key.openSlice }) ∧
        look t.spans.detectors i.key.lane = .active (later last (v + 1)) key ∧
        t = { s with spans := t.spans, notices := t.notices }))

/-- SPAN_BEACON (R93). An entry from its owner whose key is held by an ORPHANED entry makes that OPEN
again, announced by the owner; an OPEN or CLOSED one stays as it is. An entry of an unknown key acts as an
OPEN item of it does (R91): into a table with room it is inserted at once when its seat has no OPEN or
ORPHANED entry, and after closing that entry as SUPERSEDED when it opened earlier. A beacon of several
entries acts entry by entry. -/
def Obligations.BeaconReclaimsOrphan : Prop :=
  (∀ (k : StationId) (i : SpanItem) (e : SpanEntry) (s : State), s.resetN = true →
    k ≠ s.control.id → i.isOpen = true → i.key.owner = k → s.raised = [] →
    entryOf s.spans.table i.key = some e →
    ((∃ n u, e.status = .orphaned n u) →
      exec (.spanBeacon k [i]) s = .next { s with spans := { s.spans with
        table := s.spans.table.map (fun x =>
          if x.key = i.key then { x with status := .opened, announcedBy := k } else x) } }) ∧
    ((∀ n u, e.status ≠ .orphaned n u) → exec (.spanBeacon k [i]) s = .next s)) ∧
  (∀ (k : StationId) (i : SpanItem) (link : Option LinkKey) (s : State), s.resetN = true →
    k ≠ s.control.id → i.form = .opened link → i.key.owner = k → s.raised = [] →
    entryOf s.spans.table i.key = none →
    let e : SpanEntry :=
      { key := i.key, role := i.role, status := .opened, condition := i.condition, link := link
        concurrency := i.concurrency, continued := i.continued, announcedBy := k, time := i.time }
    exec (.spanBeacon k [i]) s = exec (.openItem k i) s ∧
    (liveOfSeat s.spans.table (seatOf i.key) = none → s.spans.table.length < 160 →
      exec (.spanBeacon k [i]) s =
        .next { s with spans := { s.spans with table := s.spans.table ++ [e] } }) ∧
    (∀ old, liveOfSeat s.spans.table (seatOf i.key) = some old → s.spans.table.length < 160 →
      before old.key.openSlice i.key.openSlice = true →
      exec (.spanBeacon k [i]) s = .next { s with spans := { s.spans with
        table := (s.spans.table.map (fun x =>
          if x.key = old.key then
            { x with
              status := .closed
                (if before (i.key.openSlice - 1) x.key.openSlice then x.key.openSlice
                  else i.key.openSlice - 1) .superseded
              announcedBy := s.control.id }
          else x)) ++ [e] } })) ∧
  (∀ (k : StationId) (i : SpanItem) (rest : List SpanItem) (s : State), s.raised = [] →
    ∃ t, exec (.spanBeacon k [i]) s = .next t ∧
      exec (.spanBeacon k (i :: rest)) s = exec (.spanBeacon k rest) t) ∧
  ∀ (k : StationId) (s : State), s.raised = [] → exec (.spanBeacon k []) s = .next s

/-! ### Station controller -/

/-- LISTEN_END (R7, R161, R162). When the listen count and the charter status call for it: RUN, or IDLE
when STOP_N is low; the join slice is the slice that begins; the condition is the one followed, if any;
the clock leaves FREE, and a step plan that stands is kept (the model's choice, log 46). Otherwise nothing
changes (log 3). At an ordinary boundary (R160, R161) a START
station whose store has been READY enters LISTEN with a count of 0, and one in LISTEN counts the
boundary and, when the count and the status call for it, ends LISTEN in the same way. STATE_CHANGED tells the
new state, with detail 255, and CHARTER_DEFAULTED that no charter came (R173). -/
def Obligations.ListenEnds : Prop :=
  (∀ (stopN : Bool) (s : State), s.resetN = true → s.control.mode = some .listen →
    ((50 ≤ s.control.listen ∧ s.control.status = .adopted) ∨ 300 ≤ s.control.listen) →
    ∃ t, exec (.listenEnd stopN) s = .next t ∧
      t.control = { s.control with
        mode := some (if stopN then .run else .idle)
        join := some s.clock.index
        condition := s.control.followed.getD s.control.condition
        followed := none
        status := if s.control.status = .unsettled ∧ 300 ≤ s.control.listen then .defaulted
          else s.control.status
        correction :=
          s.control.followed.isSome && decide (t.roster.reference ≠ some s.control.id) } ∧
      t.clock.discipline =
        (if t.roster.reference = some s.control.id then .selfRef else .tracking) ∧
      t.clock.aligned = false ∧ t.clock.goodRun = 0 ∧ t.clock.badRun = 0 ∧
      t.clock.trim = s.clock.trim ∧ t.clock.index = s.clock.index ∧
      (s.clock.discipline = .free → t.clock.plan = s.clock.plan) ∧ t.seat.capturing = stopN ∧
      (s.raised = [] → s.notices.entries.length ≤ 59 →
        { kind := .stateChanged, slice := s.clock.index
          subject := if stopN then 2 else 3, detail := 255 : Notice } ∈ t.notices.entries ∧
        (s.control.status = .unsettled →
          { kind := .charterDefaulted, slice := s.clock.index, subject := 255
            detail := 0 : Notice } ∈ t.notices.entries)) ∧
      t = { s with
        stopN := stopN, clock := t.clock
        seat := { s.seat with capturing := t.seat.capturing, accs := t.seat.accs }
        roster := { s.roster with
          reference := t.roster.reference, mirror := t.roster.mirror }
        rings := { s.rings with runs := t.rings.runs }
        control := t.control, notices := t.notices, freeUses := t.freeUses, raised := [] }) ∧
  (∀ (stopN : Bool) (s : State),
    (s.control.mode ≠ some .listen ∨
      (s.control.listen < 300 ∧ (s.control.listen < 50 ∨ s.control.status ≠ .adopted))) →
    exec (.listenEnd stopN) s = .next s) ∧
  (∀ (stopN : Bool) (s : State), s.resetN = true → s.clock.plan = none →
    s.control.pendingCharter = none →
    let u := s.boundary stopN s.ordinary (sliceLength s.clock.applied)
    let told (kind : NoticeKind) (subject : Byte) (detail : Half) : Raised :=
      { raiser := .control
        notice := { kind := kind, slice := s.clock.index + 1, subject := subject
                    detail := detail } }
    ∃ t, exec (.sliceBoundary stopN) s = .next t ∧ t = u.finish ∧
      (s.control.mode = some .start →
        (s.control.storeSeen = true → t.control.mode = some .listen ∧ t.control.listen = 0 ∧
          told .stateChanged 1 255 ∈ u.raised) ∧
        (s.control.storeSeen = false → t.control.mode = some .start)) ∧
      (s.control.mode = some .listen →
        t.control.listen = s.control.listen + 1 ∧
        (((50 ≤ s.control.listen + 1 ∧ s.control.status = .adopted) ∨
            300 ≤ s.control.listen + 1) →
          t.control.mode = some (if stopN then .run else .idle) ∧
          told .stateChanged (if stopN then 2 else 3) 255 ∈ u.raised ∧
          (s.control.status = .unsettled → told .charterDefaulted 255 0 ∈ u.raised) ∧
          t.control.join = some (s.clock.index + 1) ∧
          t.control.condition = s.control.followed.getD
            (s.control.pendingCondition.getD s.control.condition) ∧
          t.control.followed = none ∧
          t.control.status = (if s.control.status = .unsettled then .defaulted
            else s.control.status) ∧
          t.clock.aligned = false ∧ t.clock.discipline =
            (if t.roster.reference = some s.control.id then .selfRef else .tracking) ∧
          t.seat.capturing = stopN) ∧
        (s.control.listen + 1 < 300 → (s.control.listen + 1 < 50 ∨ s.control.status ≠ .adopted) →
          t.control.mode = some .listen ∧ t.control.status = s.control.status ∧
          t.clock.discipline = s.clock.discipline)))

/-- A charter body from a CONSOLE peer in LISTEN, RUN or IDLE is read in the order of R173 (R166, R167):
the first field out of range gives its number, and the body changes nothing but the notice queue, which
CHARTER_REJECTED joins with that number; with every field in range the body is read, each field from its
bytes. -/
def Obligations.CharterRanges : Prop :=
  (∀ (k : StationId) (body : List Byte) (n : Nat) (s : State), s.resetN = true →
    k ≠ s.control.id → (look s.roster.entries k).kind = some .console →
    (s.active = true ∨ s.control.mode = some .listen) → body.length = 272 →
    readCharter body = .error n → s.raised = [] →
    exec (.charter k body) s = .next { s with notices := (s.notices.join s.windowInFlight
      { kind := .charterRejected, slice := s.clock.index, subject := byte k.val
        detail := BitVec.ofNat 16 n }) }) ∧
  ∀ body : List Byte,
    let field (i : Nat) : Nat := (byteAt body i).toNat
    let half (i : Nat) : Nat := field i + 256 * field (i + 1)
    let seatOk (n : Nat) : Prop :=
      1 ≤ field (16 + 2 * n) % 16 ∧ field (16 + 2 * n) % 16 ≤ 8 ∧
      ¬ (field (16 + 2 * n) % 16 = 8 ∧ 128 ≤ field (16 + 2 * n)) ∧
      (field (17 + 2 * n) = 255 ∨ (field (17 + 2 * n) < 128 ∧ field (17 + 2 * n) ≠ n))
    let f1 : Prop := field 4 = 255 ∨ field 4 < 16
    let f2 : Prop := field 5 ≤ 4
    let f3 : Prop := 10 ≤ half 6 ∧ half 6 ≤ 200
    let f4 : Prop := 50 ≤ half 8 ∧ half 8 ≤ 1000
    let f5 : Prop := 1 ≤ field 10 ∧ field 10 ≤ 16
    let f6 : Prop := 1 ≤ field 11 ∧ field 11 ≤ field 10
    let f7 : Prop := 1 ≤ field 12 ∧ field 12 ≤ 16
    let f8 : Prop := 10 ≤ half 14 ∧ half 14 ≤ 500
    (¬ f1 → readCharter body = .error 1) ∧
    (f1 → ¬ f2 → readCharter body = .error 2) ∧
    (f1 → f2 → ¬ f3 → readCharter body = .error 3) ∧
    (f1 → f2 → f3 → ¬ f4 → readCharter body = .error 4) ∧
    (f1 → f2 → f3 → f4 → ¬ f5 → readCharter body = .error 5) ∧
    (f1 → f2 → f3 → f4 → f5 → ¬ f6 → readCharter body = .error 6) ∧
    (f1 → f2 → f3 → f4 → f5 → f6 → ¬ f7 → readCharter body = .error 7) ∧
    (f1 → f2 → f3 → f4 → f5 → f6 → f7 → ¬ f8 → readCharter body = .error 8) ∧
    (f1 → f2 → f3 → f4 → f5 → f6 → f7 → f8 →
      (∀ n, n < 128 → (∀ j, j < n → seatOk j) → ¬ seatOk n →
        readCharter body = .error (256 + n)) ∧
      ((∀ n, n < 128 → seatOk n) → ∃ c, readCharter body = .ok c ∧
        c.serial = word32 body 0 ∧ c.archive.map (fun k => k.val) =
          (if field 4 = 255 then none else some (field 4)) ∧
        c.mirrorShare = field 5 ∧ c.lossSlices = half 6 ∧ c.orphanSlices = half 8 ∧
        c.tOpen = field 10 ∧ c.tClose = field 11 ∧ c.nOnset = field 12 ∧ c.nHang = half 14 ∧
        c.seats.length = 128 ∧
        ∀ n e, c.seats[n]? = some e →
          (roleCode e.role).toNat = field (16 + 2 * n) % 16 ∧
          e.detect = decide (128 ≤ field (16 + 2 * n)) ∧
          e.link.map (fun l => l.val) =
            (if field (17 + 2 * n) = 255 then none else some (field (17 + 2 * n)))))

/-- A charter in range, from a CONSOLE peer (R167, R168). In LISTEN while UNSETTLED it is adopted at
once: in force with the CRC-32 of its body as digest, the detectors take its detect settings, and the
rings stay, or both are emptied when m changes. In RUN or IDLE on defaults with none pending it becomes
pending. While one is pending, and once a charter is ADOPTED, the same one is passed over and another is
ignored with CHARTER_IGNORED. A pending charter comes into force at the next boundary (R169): with its digest, ADOPTED,
none pending, and both rings emptied when m changes (R114). CHARTER_ADOPTED tells the sender and the serial
of either adoption (R173). -/
def Obligations.CharterJudged : Prop :=
  (∀ (k : StationId) (body : List Byte) (c : Charter) (s : State), s.resetN = true →
    k ≠ s.control.id → (look s.roster.entries k).kind = some .console → body.length = 272 →
    readCharter body = .ok c →
    (s.control.mode = some .listen → s.control.status = .unsettled →
      ∃ t, exec (.charter k body) s = .next t ∧
        t.control.status = .adopted ∧ t.control.charter = c ∧ t.control.digest = crc32 body ∧
        t.control.pendingCharter = none ∧ t.control.mode = some .listen ∧
        t.control.listen = s.control.listen ∧
        (s.raised = [] → s.notices.entries.length ≤ 56 →
          { kind := .charterAdopted, slice := s.clock.index, subject := byte k.val
            detail := sliceDetail c.serial : Notice } ∈ t.notices.entries) ∧
        (∀ l, l ∈ s.presentLanes → look t.spans.detectors l =
          if (c.seat (roomSeat s.control.id l)).detect then .quiet else .disabled) ∧
        t.spans.table = s.spans.table ∧ t.spans.outbox = s.spans.outbox ∧
        (c.mirrorShare = s.control.charter.mirrorShare → t.rings = s.rings ∧ t.store = s.store) ∧
        (c.mirrorShare ≠ s.control.charter.mirrorShare →
          t.rings.own.pages = [] ∧ t.rings.own.high = none ∧ t.rings.mirror.pages = [] ∧
          t.rings.mirror.high = none ∧ t.rings.runs = [] ∧ t.rings.marks = s.rings.marks) ∧
        t.link = s.link ∧ t.seat = s.seat ∧ t.server = s.server ∧ t.dram = s.dram ∧
        t.pending = s.pending) ∧
    (s.active = true → s.control.status = .defaulted → s.control.pendingCharter = none →
      s.raised = [] →
      exec (.charter k body) s = .next { s with control := { s.control with
        pendingCharter := some { charter := c, digest := crc32 body, sender := k } } }) ∧
    (s.active = true → s.control.status = .defaulted → s.raised = [] →
      ∀ p, s.control.pendingCharter = some p →
      (p.digest = crc32 body → exec (.charter k body) s = .next s) ∧
      (p.digest ≠ crc32 body →
        exec (.charter k body) s = .next { s with notices := (s.notices.join s.windowInFlight
          { kind := .charterIgnored, slice := s.clock.index, subject := byte k.val
            detail := sliceDetail c.serial }) })) ∧
    ((s.active = true ∨ s.control.mode = some .listen) → s.control.status = .adopted →
      s.raised = [] →
      (crc32 body = s.control.digest → exec (.charter k body) s = .next s) ∧
      (crc32 body ≠ s.control.digest →
        exec (.charter k body) s = .next { s with notices := (s.notices.join s.windowInFlight
          { kind := .charterIgnored, slice := s.clock.index, subject := byte k.val
            detail := sliceDetail c.serial }) }))) ∧
  (∀ (stopN : Bool) (p : PendingCharter) (s : State), s.resetN = true → s.clock.plan = none →
    s.control.pendingCharter = some p →
    let u := s.boundary stopN s.ordinary (sliceLength s.clock.applied)
    ∃ t, exec (.sliceBoundary stopN) s = .next t ∧ t = u.finish ∧
      ({ raiser := .control
         notice := { kind := .charterAdopted, slice := s.clock.index + 1
                     subject := byte p.sender.val
                     detail := sliceDetail p.charter.serial } } : Raised) ∈ u.raised ∧
      t.control.status = .adopted ∧ t.control.charter = p.charter ∧ t.control.digest = p.digest ∧
      t.control.pendingCharter = none ∧
      (p.charter.mirrorShare ≠ s.control.charter.mirrorShare →
        t.rings.own.pages = [] ∧ t.rings.own.high = none ∧ t.rings.mirror.pages = [] ∧
        t.rings.mirror.high = none ∧ t.rings.runs = []))

/-- CONDITION of a CONSOLE peer in RUN or IDLE (R170): the named condition becomes pending and the join
correction is cleared; a code that names none is passed over. A pending condition is in force from the
next boundary. TIME_MARK of a CONSOLE peer in LISTEN, RUN or IDLE (R16): with milliseconds of a day it
replaces the held mark, otherwise it is ignored. Neither command changes anything else. -/
def Obligations.ConditionAndTimeMark : Prop :=
  (∀ (k : StationId) (s : State), s.resetN = true → k ≠ s.control.id →
    (look s.roster.entries k).kind = some .console →
    (s.active = true → ∀ code : Byte,
      (∀ c, conditionOf code = some c → exec (.condition k code) s =
        .next { s with control := { s.control with
          pendingCondition := some c, correction := false } }) ∧
      (conditionOf code = none → exec (.condition k code) s = .next s)) ∧
    ((s.active = true ∨ s.control.mode = some .listen) →
      ∀ (e : Slice) (d : Half) (m : Word),
      (m.toNat ≤ 86399999 → exec (.timeMark k e d m) s =
        .next { s with clock := { s.clock with mark := some { slice := e, day := d, ms := m } } }) ∧
      (86400000 ≤ m.toNat → exec (.timeMark k e d m) s = .next s))) ∧
  (∀ (stopN : Bool) (s : State), s.resetN = true → s.clock.plan = none → s.active = true →
    ∃ t, exec (.sliceBoundary stopN) s = .next t ∧
      t.control.condition = s.control.pendingCondition.getD s.control.condition ∧
      t.control.pendingCondition = none)

/-- PROBE (R172): TEST joins the notice queue, or is dropped and counted when the queue is full; nothing
else changes. -/
def Obligations.ProbeAnswered : Prop :=
  ∀ (k : StationId) (target : Byte) (v : Half) (s : State), s.resetN = true →
    k ≠ s.control.id → (look s.roster.entries k).kind = some .console → s.active = true →
    (target.toNat = s.control.id.val ∨ target.toNat = 255) → s.raised = [] →
    (s.notices.entries.length < 64 →
      exec (.probe k target v) s = .next { s with notices := { s.notices with
        entries := s.notices.entries ++
          [{ kind := .test, slice := s.clock.index, subject := byte k.val, detail := v }] } }) ∧
    (64 ≤ s.notices.entries.length →
      exec (.probe k target v) s = .next { s with notices := { s.notices with
        dropped := if s.notices.dropped < 255 then s.notices.dropped + 1 else 255
        droppedSince :=
          if s.link.tx = .sendingWindow then
            (if s.notices.droppedSince < 255 then s.notices.droppedSince + 1 else 255)
          else s.notices.droppedSince } })

/-- STOP of a CONSOLE peer for this station (R164) is pending in RUN when none is pending, is otherwise
left as it is, and in IDLE is ignored; START (R165) is pending in IDLE, a later one recording its own
requester (log 10), and ignored in RUN. Nothing else changes. At the next boundary RUN goes to IDLE for a
pending STOP or a low STOP_N, and IDLE to RUN for a pending START while STOP_N is high; either way the
pending request is cleared. STATE_CHANGED tells the new state and the requester, also where STOP_N is low
too, and 255 for STOP_N alone (R173). -/
def Obligations.StopAndStartBecomePending : Prop :=
  (∀ (k : StationId) (target : Byte) (s : State), s.resetN = true → k ≠ s.control.id →
    (look s.roster.entries k).kind = some .console →
    (target.toNat = s.control.id.val ∨ target.toNat = 255) →
    (s.control.mode = some .run → s.control.pendingStop = none → exec (.stop k target) s =
      .next { s with control := { s.control with pendingStop := some k } }) ∧
    (s.control.mode = some .run → s.control.pendingStop ≠ none →
      exec (.stop k target) s = .next s) ∧
    (s.control.mode = some .idle → exec (.stop k target) s = .next s) ∧
    (s.control.mode = some .idle → exec (.start k target) s =
      .next { s with control := { s.control with pendingStart := some k } }) ∧
    (s.control.mode = some .run → exec (.start k target) s = .next s)) ∧
  (∀ (stopN : Bool) (s : State), s.resetN = true → s.clock.plan = none →
    let u := s.boundary stopN s.ordinary (sliceLength s.clock.applied)
    let told (subject : Byte) (requester : Nat) : Raised :=
      { raiser := .control
        notice := { kind := .stateChanged, slice := s.clock.index + 1, subject := subject
                    detail := BitVec.ofNat 16 requester } }
    ∃ t, exec (.sliceBoundary stopN) s = .next t ∧ t = u.finish ∧
      (s.control.mode = some .run →
        ((s.control.pendingStop ≠ none ∨ stopN = false) →
          t.control.mode = some .idle ∧ t.control.pendingStop = none ∧
          (∀ k, s.control.pendingStop = some k → told 3 k.val ∈ u.raised) ∧
          (s.control.pendingStop = none → told 3 255 ∈ u.raised) ∧
          t.seat.capturing = false) ∧
        (s.control.pendingStop = none → stopN = true →
          t.control.mode = some .run ∧ t.seat.capturing = true)) ∧
      (s.control.mode = some .idle →
        (∀ k, s.control.pendingStart = some k →
          t.control.mode = some (if stopN then .run else .idle) ∧
          (stopN = true → told 2 k.val ∈ u.raised) ∧
          t.control.pendingStart = none ∧ t.seat.capturing = stopN) ∧
        (s.control.pendingStart = none →
          t.control.mode = some .idle ∧ t.seat.capturing = false)))

/-- A request its sender may not make, or the station's state does not take, is passed over (R171); of a
RECALL in START or LISTEN nothing is left but the command's end, where the store may take a claim that
stood already. -/
def Obligations.RequestsPassedOver : Prop :=
  (∀ s : State, s.raised = [] →
    (∀ k, (s.entry k).kind ≠ some .console → ∀ body code e d m target v,
      exec (.charter k body) s = .next s ∧ exec (.condition k code) s = .next s ∧
      exec (.timeMark k e d m) s = .next s ∧ exec (.probe k target v) s = .next s ∧
      exec (.stop k target) s = .next s ∧ exec (.start k target) s = .next s) ∧
    (∀ k (target : Byte) v, target.toNat ≠ s.control.id.val → target.toNat ≠ 255 →
      exec (.probe k target v) s = .next s ∧ exec (.stop k target) s = .next s ∧
      exec (.start k target) s = .next s) ∧
    (s.control.mode = some .start → ∀ k body e d m pairs,
      exec (.charter k body) s = .next s ∧ exec (.timeMark k e d m) s = .next s ∧
      exec (.archiveMark k pairs) s = .next s) ∧
    (s.active = false → ∀ k code target v,
      exec (.condition k code) s = .next s ∧ exec (.probe k target v) s = .next s ∧
      exec (.stop k target) s = .next s ∧ exec (.start k target) s = .next s) ∧
    (∀ k pairs, s.control.charter.archive ≠ some k → exec (.archiveMark k pairs) s = .next s) ∧
    (s.active = false → (s.store.op ≠ none ∨ s.stWait = true ∨ s.resetN = false) →
      ∀ k tag holder source mask first last,
      exec (.recallRequest k tag holder source mask first last) s = .next s)) ∧
  (∀ s : State, s.resetN = true → s.active = false → ∀ k tag holder source mask first last,
    exec (.recallRequest k tag holder source mask first last) s = .next s.finish)

/-! ### Rings and store -/

/-- ARCHIVE_MARK of the archive of record (R107). One pair: a mark that is absent or earlier moves to the
pair's slice and arms the flag; a pair at or before the mark, or of an ID above 15, is ignored. The pairs of a
list, up to 16, are applied in list order: the first alone, then the rest. -/
def Obligations.ArchiveMarkMovesForward : Prop :=
  ∀ (k : StationId) (s : State), s.resetN = true → k ≠ s.control.id →
    (s.active = true ∨ s.control.mode = some .listen) → s.control.charter.archive = some k →
    (∀ (b : Byte) (t : Slice),
      (∀ j : StationId, b.toNat = j.val →
        (look s.rings.marks j = none ∨
          ∃ m, look s.rings.marks j = some m ∧ before m t = true) →
        exec (.archiveMark k [(b, t)]) s = .next { s with rings := { s.rings with
          marks := put s.rings.marks j (some t), armed := put s.rings.armed j true } }) ∧
      (∀ (j : StationId) (m : Slice), b.toNat = j.val → look s.rings.marks j = some m →
        before m t = false → exec (.archiveMark k [(b, t)]) s = .next s) ∧
      (16 ≤ b.toNat → exec (.archiveMark k [(b, t)]) s = .next s)) ∧
    (∀ (p q : Byte × Slice) (rest : List (Byte × Slice)), rest.length ≤ 14 →
      ∃ t, exec (.archiveMark k [p]) s = .next t ∧
        exec (.archiveMark k (p :: q :: rest)) s = exec (.archiveMark k (q :: rest)) t)

/-- ST_WAIT_RAISED sets the line; while it is held no command but its release starts a store
operation (R126). -/
def Obligations.StWaitHoldsStore : Prop :=
  (∀ s : State, exec .stWaitRaised s = .next { s with stWait := true }) ∧
  (∀ (c : Instr) (s t : State), s.stWait = true → s.store.op = none → c ≠ .stWaitReleased →
    exec c s = .next t → t.store.op = none)

/-- ST_WAIT_RELEASED is an operation boundary (R126, R128, R131). An idle store in INIT_REFRESH begins a
refresh. An idle READY store grants the first of five claimants. Urgent refresh: a refresh begins. Else the
next slot write of a capture page that is settled or begun; before the first, the own ring makes room for it
(R103, R106) or restarts when the page is not after the high mark (R105). Else the next slot write of a
mirror page; before the first, the ring makes room, taking the page from its run (R111), gives up its newest
page at a handover, or restarts when the page lies before the high mark or is the newest page's slice from
its source again (R109); with no mirror ring the staged mirror pages are discarded (R135). Else the read of
a claim whose lookup found a slot (R133). Else a routine refresh for a debt, which falls by one. In PAUSE,
with an operation in progress, or while RESET_N is low, only the line changes. -/
def Obligations.StWaitReleasedStartsRefresh : Prop :=
  (∀ s : State, s.resetN = true → s.store.op = none → s.store.phase = .ready → s.raised = [] →
    (6 ≤ s.store.debt ∨ (1 ≤ s.store.debt ∧ s.store.capture = [] ∧ s.store.mirror = [] ∧
      s.server.claim = none)) →
    exec .stWaitReleased s = .next { s with
      stWait := false
      store := { s.store with op := some .refresh, debt := s.store.debt - 1 } }) ∧
  (∀ s : State, s.raised = [] →
    (s.store.op ≠ none ∨ s.store.phase = .pause ∨ s.resetN = false) →
    exec .stWaitReleased s = .next { s with stWait := false }) ∧
  (∀ s : State, s.resetN = true → s.store.op = none → s.store.phase = .initRefresh → s.raised = [] →
    exec .stWaitReleased s = .next { s with
      stWait := false, store := { s.store with op := some .refresh } }) ∧
  (∀ (p : OwnPage) (rest : List OwnPage) (s : State), s.resetN = true → s.store.op = none →
    s.store.phase = .ready → s.raised = [] → s.store.debt < 6 → s.store.capture = p :: rest →
    let slot (l : Lane) : List Byte :=
      slotBytes p.slice s.control.id l (p.slots.getD l.val none) p.flagsByte
    (∀ w, s.store.captureWrite = some w → exec .stWaitReleased s = .next { s with
      stWait := false
      store := { s.store with op := some (.writeSlot .capture w.place w.lane (slot w.lane) true) } }) ∧
    (s.store.captureWrite = none → p.outcome ≠ .awaiting →
      (s.rings.own.pages.length < s.ownCap →
        (∀ h, s.rings.own.high = some h → before h p.slice = true) →
        exec .stWaitReleased s = .next { s with
          stWait := false
          store := { s.store with
            captureWrite := some { place := s.rings.own.nextPlace, lane := 0 }
            op := some (.writeSlot .capture s.rings.own.nextPlace 0 (slot 0) true) } }) ∧
      (∀ q more, s.rings.own.pages = q :: more → s.ownCap ≤ s.rings.own.pages.length →
        (∀ h, s.rings.own.high = some h → before h p.slice = true) →
        ∃ t, exec .stWaitReleased s = .next t ∧
          t.rings.own = { s.rings.own with pages := more } ∧
          t.rings.unarchived = s.rings.unarchived +
            (if s.rings.unarchivedSlice q.source q.slice then 1 else 0) ∧
          t.rings.armed = (if s.rings.unarchivedSlice q.source q.slice then
            put s.rings.armed q.source false else s.rings.armed) ∧
          t.notices = (if s.rings.unarchivedSlice q.source q.slice = true ∧
              look s.rings.armed q.source = true then
            s.notices.join s.windowInFlight
              { kind := .unarchivedOverwrite, slice := s.clock.index
                subject := byte q.source.val, detail := sliceDetail q.slice }
            else s.notices) ∧
          t.store = { s.store with
            captureWrite := some { place := s.rings.own.nextPlace, lane := 0 }
            op := some (.writeSlot .capture s.rings.own.nextPlace 0 (slot 0) true) }) ∧
      (∀ h, s.rings.own.high = some h → before h p.slice = false →
        exec .stWaitReleased s = .next { s with
          stWait := false
          rings := { s.rings with own := Ring.empty }
          store := { s.store with
            captureWrite := some { place := 0, lane := 0 }
            op := some (.writeSlot .capture 0 0 (slot 0) true) }
          notices := (s.notices.join s.windowInFlight
            { kind := .ringRestarted, slice := s.clock.index, subject := 0, detail := 2 }) }))) ∧
  (∀ (p : MirrorPage) (rest : List MirrorPage) (s : State), s.resetN = true → s.store.op = none →
    s.store.phase = .ready → s.raised = [] → s.store.debt < 6 → s.store.captureWrite = none →
    (∀ c more, s.store.capture = c :: more → c.outcome = .awaiting) → s.store.mirror = p :: rest →
    let slot (l : Lane) : List Byte :=
      slotBytes p.slice p.source l (p.slots.getD l.val none) 0
    (∀ w, s.store.mirrorWrite = some w → exec .stWaitReleased s = .next { s with
      stWait := false
      store := { s.store with
        op := some (.writeSlot .mirror (s.ownCap + w.place) w.lane (slot w.lane) true) } }) ∧
    (s.store.mirrorWrite = none → 0 < s.mirrorCap →
      (s.rings.mirror.pages.length < s.mirrorCap →
        (∀ h, s.rings.mirror.high = some h → p.slice ≠ h ∧ before p.slice h = false) →
        exec .stWaitReleased s = .next { s with
          stWait := false
          store := { s.store with
            mirrorWrite := some { place := s.rings.mirror.nextPlace, lane := 0 }
            op := some (.writeSlot .mirror (s.ownCap + s.rings.mirror.nextPlace) 0 (slot 0)
              true) } }) ∧
      (∀ q more, s.rings.mirror.pages = q :: more → s.mirrorCap ≤ s.rings.mirror.pages.length →
        (∀ h, s.rings.mirror.high = some h → p.slice ≠ h ∧ before p.slice h = false) →
        ∃ t, exec .stWaitReleased s = .next t ∧
          t.rings.mirror = { s.rings.mirror with pages := more } ∧
          (∀ u us, s.rings.runs = u :: us → t.rings.runs =
            (if u.first = u.last then us else { u with first := u.first + 1 } :: us)) ∧
          t.store.mirrorWrite = some { place := s.rings.mirror.nextPlace, lane := 0 }) ∧
      (∀ q more, s.rings.mirror.pages = more ++ [q] → s.rings.mirror.high = some p.slice →
        q.source ≠ p.source → more.length < s.mirrorCap →
        ∃ t, exec .stWaitReleased s = .next t ∧
          t.rings.mirror = { s.rings.mirror with pages := more, nextPlace := q.place } ∧
          (∀ us u, s.rings.runs = us ++ [u] → t.rings.runs =
            (if u.first = u.last then us else us ++ [{ u with last := u.last - 1 }])) ∧
          t.store.mirrorWrite = some { place := q.place, lane := 0 }) ∧
      (∀ h, s.rings.mirror.high = some h →
        (before p.slice h = true ∨
          (p.slice = h ∧ ∃ q more, s.rings.mirror.pages = more ++ [q] ∧ q.source = p.source)) →
        exec .stWaitReleased s = .next { s with
          stWait := false
          rings := { s.rings with mirror := Ring.empty, runs := [] }
          store := { s.store with
            mirrorWrite := some { place := 0, lane := 0 }
            op := some (.writeSlot .mirror s.ownCap 0 (slot 0) true) }
          notices := (s.notices.join s.windowInFlight
            { kind := .ringRestarted, slice := s.clock.index, subject := 1, detail := 3 }) })) ∧
    (s.store.mirrorWrite = none → s.mirrorCap = 0 → rest.length ≤ 1 → s.server.claim = none →
      exec .stWaitReleased s = .next { s with
        stWait := false
        store := { s.store with
          mirror := [], op := if 1 ≤ s.store.debt then some .refresh else none
          debt := s.store.debt - 1 } })) ∧
  (∀ (c : Claim) (pos : ReadPos) (r : PageRecord) (s : State), s.resetN = true →
    s.store.op = none → s.store.phase = .ready → s.raised = [] → s.store.debt < 6 →
    s.store.captureWrite = none → (∀ p more, s.store.capture = p :: more → p.outcome = .awaiting) →
    s.store.mirror = [] → s.server.claim = some c → s.server.pos = some pos →
    s.lookup c.source c.slice c.lane = .held r →
    exec .stWaitReleased s = .next { s with
      stWait := false
      store := { s.store with op := some (.readSlot c
        (if c.source = s.control.id then r.place else s.ownCap + r.place)) }
      server := { s.server with
        claim := none, inFlight := some { pos := pos, discard := false } } })

/-- The start-up of the store (R123, R128). PAUSE_END: INIT_REFRESH begins, with its first refresh when
ST_WAIT is released. REFRESH_END: the row counter advances, wrapping from 8,191 to 0; in INIT_REFRESH the
eighth makes the store READY with tick count and debt 0, reported by STORE_READY (R138), and an earlier one
is counted. -/
def Obligations.StoreStartsUp : Prop :=
  (∀ s : State, s.resetN = true → s.store.phase = .pause → s.store.op = none → s.raised = [] →
    exec .pauseEnd s = .next { s with store := { s.store with
      phase := .initRefresh, pauseTime := 4800
      op := if s.stWait then none else some .refresh } }) ∧
  (∀ s : State, s.resetN = true → s.store.op = some .refresh →
    ∃ t, exec .refreshEnd s = .next t ∧ t.store.row = s.store.row + 1 ∧
      (s.store.phase = .initRefresh → s.store.initDone = 7 →
        t.store.phase = .ready ∧ t.store.ticks = 0 ∧ t.store.debt = 0 ∧
        t.control.storeSeen = true ∧
        (s.raised = [] → (s.stWait = true ∨ (s.store.capture = [] ∧ s.store.mirror = [])) →
          t.notices = s.notices.join s.windowInFlight
            { kind := .storeReady, slice := s.clock.index
              subject := if s.control.storeSeen then 1 else 0
              detail := BitVec.ofNat 16 s.store.reinits })) ∧
      (s.store.phase = .initRefresh → s.store.initDone < 7 →
        t.store.phase = .initRefresh ∧ t.store.initDone = s.store.initDone + 1 ∧
        t.store.op = (if s.stWait then none else some .refresh)) ∧
      t = { s with
        rings := t.rings, store := t.store, server := t.server
        control := { s.control with storeSeen := t.control.storeSeen }
        notices := t.notices, freeUses := t.freeUses, raised := [] })

/-- REFRESH_TICK in READY below a debt of 8 (R129): tick count and debt rise by one, and the peak debt
with them when passed. While an operation is in progress or ST_WAIT is held nothing else happens; an idle
store begins a refresh at once when the debt is then urgent or nothing else claims it (R131), and the debt
falls again. Outside READY no tick falls. -/
def Obligations.RefreshTickRaisesDebt : Prop :=
  (∀ s : State, s.resetN = true → s.store.phase = .ready → s.store.debt < 8 →
    (s.store.op ≠ none ∨ s.stWait = true) → s.raised = [] →
    exec .refreshTick s = .next { s with store := { s.store with
      ticks := s.store.ticks + 1, debt := s.store.debt + 1
      peak := max s.store.peak (s.store.debt + 1) } }) ∧
  (∀ s : State, s.resetN = true → s.store.phase = .ready → s.store.debt < 8 →
    s.store.op = none → s.stWait = false → s.raised = [] →
    (5 ≤ s.store.debt ∨
      (s.store.capture = [] ∧ s.store.mirror = [] ∧ s.server.claim = none)) →
    exec .refreshTick s = .next { s with store := { s.store with
      ticks := s.store.ticks + 1, op := some .refresh
      peak := max s.store.peak (s.store.debt + 1) } }) ∧
  (∀ s : State, s.store.phase ≠ .ready → (s.store.op ≠ none ∨ s.stWait = true) → s.raised = [] →
    exec .refreshTick s = .next s)

/-- REFRESH_TICK in READY at a debt of 8 is a store fault (R115, R130, R137): STORE_INIT in PAUSE, both
rings and the run list emptied, no page write in progress, the staged pages kept with their outcomes. The
notices are STORE_FAULT, with the writes returned to not begun and the number of staged pages (R138), and
RING_RESTARTED with cause 4 for each ring that held a page or a high mark, the own ring's first (R113, R120);
STORE_FAULT takes no fixed place among them (R174). Of the read buffer only the items handed to the link
stay, and the read position is set back (R154): to the first item not handed while a recall frame is in
flight, or, with every item handed, where it stood, and to the cursor otherwise. The claim is withdrawn, and
in a reading period production goes on from there: the claim of that place is presented where the room
allows. R137 has no operation in progress at a fault; that in a state with one a read in flight is marked to
give no item, and the operation may stand on, is the model's choice (log 30). -/
def Obligations.StoreFaultAtDebtEight : Prop :=
  ∀ s : State, s.resetN = true → s.store.phase = .ready → s.store.debt = 8 →
    let told (kind : NoticeKind) (subject detail : Nat) : Notice :=
      { kind := kind, slice := s.clock.index, subject := byte subject
        detail := BitVec.ofNat 16 detail }
    let restarts : List Notice :=
      (if s.rings.own.pages = [] ∧ s.rings.own.high = none then []
        else [told .ringRestarted 0 4]) ++
      (if s.rings.mirror.pages = [] ∧ s.rings.mirror.high = none then []
        else [told .ringRestarted 1 4])
    let fault : Notice := told .storeFault
      ((if s.store.captureWrite = none then 0 else 1) + (if s.store.mirrorWrite = none then 0 else 2))
      (s.store.capture.length + s.store.mirror.length)
    let back : Option ReadPos :=
      if s.link.tx = .sendingRecall then
        match s.server.buffer.find? (fun i => !i.handed) with
        | some i => some { request := i.request, place := i.place }
        | none => s.server.pos
      else s.server.cursor
    let rewound : Recall := { s.server with
      buffer := s.server.buffer.filter (fun i => i.handed), claim := none, pos := back
      inFlight := s.server.inFlight.map (fun f => { f with discard := true }) }
    ∃ t, exec .refreshTick s = .next t ∧
      t.store = { s.store with
        phase := .pause, pauseTime := 0, initDone := 0, debt := 0, ticks := 0
        captureWrite := none, mirrorWrite := none, op := t.store.op
        reinits := if s.store.reinits < 65535 then s.store.reinits + 1 else 65535 } ∧
      (s.store.op = none → t.store.op = none) ∧
      t.rings = { s.rings with own := Ring.empty, mirror := Ring.empty, runs := [] } ∧
      (s.raised = [] → ∃ order : List Notice, order.Perm (fault :: restarts) ∧
        order.filter (fun n => decide (n.kind = .ringRestarted)) = restarts ∧
        t.notices = order.foldl (NoticeQueue.join s.windowInFlight) s.notices) ∧
      (s.server.reading = false → t.server = rewound) ∧
      (∀ p u l, s.server.reading = true → back = some p → p.place = .slot u l →
        t.server = { rewound with
          claim :=
            if (rewound.buffer.map fun i => i.item.size).sum + 336 ≤ 19940 then
              some { source := p.request.source, slice := u, lane := l }
            else none }) ∧
      (∀ p, s.server.reading = true → back = some p → p.place = .done →
        t.server.buffer.take rewound.buffer.length = rewound.buffer ∧
        (∀ i ∈ t.server.buffer.drop rewound.buffer.length, ∃ b g, i.item = .done b g) ∧
        ((rewound.buffer.any fun i => i.isDoneOf p.request) = true → t.server = rewound)) ∧
      (s.server.reading = true → back = none → t.server = rewound) ∧
      t.server.queue = s.server.queue ∧ t.server.cursor = s.server.cursor ∧
      t = { s with
        rings := t.rings, store := t.store, server := t.server
        notices := t.notices, freeUses := t.freeUses, raised := [] }

/-- SLOT_WRITE_END (R122, R124): the slot's bytes, at 4,096 page + 512 lane, stand in the DRAM as
written; every other byte reads as before. -/
def Obligations.SlotWriteStoresBytes : Prop :=
  ∀ (kind : PageKind) (page : Nat) (lane : Lane) (bytes : List Byte) (live : Bool) (s : State),
    s.resetN = true → s.store.op = some (.writeSlot kind page lane bytes live) →
    page < storePages s.control.sizeCode → s.dramWf = true →
    ∃ t, exec .slotWriteEnd s = .next t ∧
      (∀ i, (h : i < bytes.length) →
        Memory.read t.dram (slotAddress page lane + i) = bytes[i]) ∧
      (∀ a, a < slotAddress page lane ∨ slotAddress page lane + bytes.length ≤ a →
        Memory.read t.dram a = Memory.read s.dram a) ∧
      slotAddress page lane = 4096 * page + 512 * lane.val ∧
      t = { s with
        rings := t.rings, store := t.store, dram := t.dram, server := t.server
        notices := t.notices, freeUses := t.freeUses, raised := [] }

/-- SLOT_WRITE_END of a page's eighth slot, with ST_WAIT held: the page leaves staging, and its record
joins the tail of its ring (R103, R124, R134, R135), a capture page's with its outcome. A mirror page
extends the OPEN run of its source when its slice follows the run's last; else every run closes and it
opens one of its own, after the oldest of four is given up with its pages (R110, R112). -/
def Obligations.EighthSlotCompletesPage : Prop :=
  (∀ (place page : Nat) (bytes : List Byte) (p : OwnPage) (rest : List OwnPage) (s : State),
    s.resetN = true → s.stWait = true →
    s.store.op = some (.writeSlot .capture page 7 bytes true) →
    page < storePages s.control.sizeCode → s.store.captureWrite = some { place := place, lane := 7 } →
    s.store.capture = p :: rest →
    ∃ t r, exec .slotWriteEnd s = .next t ∧
      t.store = { s.store with op := none, captureWrite := none, capture := rest } ∧
      t.rings.own.pages = s.rings.own.pages ++ [r] ∧
      t.rings.own.high = some p.slice ∧ r.slice = p.slice ∧ r.source = s.control.id ∧
      r.place = place ∧ r.stepped = p.stepped ∧ (r.unsent = true ↔ p.outcome = .unsent) ∧
      (∀ l : Lane, r.absent.getLsbD l.val = (p.slots.getD l.val none).isNone) ∧
      t.rings = { s.rings with own := t.rings.own } ∧ t.server = s.server) ∧
  (∀ (place page : Nat) (bytes : List Byte) (p : MirrorPage) (rest : List MirrorPage) (s : State),
    s.resetN = true → s.stWait = true →
    s.store.op = some (.writeSlot .mirror page 7 bytes true) →
    page < storePages s.control.sizeCode → s.store.mirrorWrite = some { place := place, lane := 7 } →
    s.store.mirror = p :: rest →
    let joins (u : Run) : Prop := u.isOpen = true ∧ u.source = p.source ∧ u.last + 1 = p.slice
    let own : Run := { source := p.source, first := p.slice, last := p.slice, isOpen := true }
    let closed (us : List Run) : List Run := us.map fun u => { u with isOpen := false }
    ∃ t r, exec .slotWriteEnd s = .next t ∧
      t.store = { s.store with op := none, mirrorWrite := none, mirror := rest } ∧
      t.rings.mirror.high = some p.slice ∧ t.rings.own = s.rings.own ∧ r.slice = p.slice ∧
      r.source = p.source ∧ r.place = place ∧ r.stepped = false ∧ r.unsent = false ∧
      (∀ l : Lane, r.absent.getLsbD l.val = (p.slots.getD l.val none).isNone) ∧
      (∀ us u, s.rings.runs = us ++ [u] → joins u → (∀ x ∈ us, x.isOpen = false) →
        t.rings.mirror.pages = s.rings.mirror.pages ++ [r] ∧
        t.rings.runs = us ++ [{ u with last := p.slice }]) ∧
      ((∀ u ∈ s.rings.runs, ¬ joins u) → s.rings.runs.length < 4 →
        t.rings.mirror.pages = s.rings.mirror.pages ++ [r] ∧
        t.rings.runs = closed s.rings.runs ++ [own]) ∧
      (∀ u us, s.rings.runs = u :: us → (∀ x ∈ u :: us, ¬ joins x) → 3 ≤ us.length →
        t.rings.mirror.pages = s.rings.mirror.pages.dropWhile u.holds ++ [r] ∧
        t.rings.runs = closed us ++ [own]) ∧
      t.server = s.server)

/-- A slot read back undamaged gives the block that was written (R124, R125, R183), whatever the slice,
source, lane and page flags. -/
def Obligations.SlotReadsBackAsWritten : Prop :=
  ∀ (t : Slice) (k : StationId) (l : Lane) (b : Block) (flags : Byte),
    b.slice = t → b.lane = l → b.samples.length = 160 → b.missing ≤ 160 → b.level ≤ 16 →
    (slotBytes t k l (some b) flags).length = 512 ∧
    slotGood (slotBytes t k l (some b) flags) { source := k, slice := t, lane := l } = true ∧
    slotBlock (slotBytes t k l (some b) flags) { source := k, slice := t, lane := l } = b ∧
    slotUnsent (slotBytes t k l (some b) flags) = flags.getLsbD 2

/-! ### Recall service -/

/-- RECALL addressed to this station and in range, in RUN or IDLE, joins the tail of the queue with its
counts at 0 (R141, R143). With an empty queue before and no claim presented outside a reading period,
cursor and read position stand at its start. -/
def Obligations.RecallAccepted : Prop :=
  ∀ (k : StationId) (tag : Half) (holder source mask : Byte) (first last : Slice) (src : StationId)
    (s : State), s.resetN = true → k ≠ s.control.id → s.active = true →
    holder.toNat = s.control.id.val → source.toNat = src.val → (last - first).toNat < 6000 →
    mask ≠ 0 → (src = s.control.id ∨ 0 < s.control.charter.mirrorShare) →
    (∀ q ∈ s.server.queue, ¬ (q.id.requester = k ∧ q.id.source = src ∧ q.id.mask = mask ∧
      q.id.first = first ∧ q.id.last = last)) → s.server.queue.length < 8 →
    let id : RecallId :=
      { requester := k, tag := tag, source := src, mask := mask, first := first, last := last }
    ∃ t, exec (.recallRequest k tag holder source mask first last) s = .next t ∧
      t.server.queue = s.server.queue ++ [{ id := id, blocksSent := 0, gapsSent := 0 }] ∧
      (s.server.queue = [] → s.server.reading = false → s.server.claim = none →
        ∃ l : Lane, mask.getLsbD l.val = true ∧ (∀ j : Lane, j < l → mask.getLsbD j.val = false) ∧
          t.server.cursor = some { request := id, place := .slot first l } ∧
          t.server.pos = some { request := id, place := .slot first l }) ∧
      t = { s with
        rings := t.rings, store := t.store, server := t.server
        notices := t.notices, freeUses := t.freeUses, raised := [] }

/-- RECALL in RUN or IDLE that is turned away (R140 to R142, R157). Addressed to another holder, or equal
to a queued request but for its tag and in range, it leaves the state to the end of the command alone.
With a source above 15, a range of no slice or of more than 6,000, an empty mask, a mirror source while m
is 0, or a full queue and no duplicate, it is refused: RECALL_REFUSED is raised and nothing else is done.
The end of the command, where the store takes no claim, changes only the notice queue. -/
def Obligations.RecallTurnedAway : Prop :=
  ∀ (k : StationId) (tag : Half) (holder source mask : Byte) (first last : Slice) (s : State),
    s.resetN = true → k ≠ s.control.id → s.active = true →
    (holder.toNat ≠ s.control.id.val →
      exec (.recallRequest k tag holder source mask first last) s = .next s.finish) ∧
    (∀ q ∈ s.server.queue, holder.toNat = s.control.id.val → q.id.requester = k →
      q.id.source.val = source.toNat → q.id.mask = mask → q.id.first = first → q.id.last = last →
      (last - first).toNat < 6000 → mask ≠ 0 →
      (source.toNat = s.control.id.val ∨ 0 < s.control.charter.mirrorShare) →
      exec (.recallRequest k tag holder source mask first last) s = .next s.finish) ∧
    (holder.toNat = s.control.id.val →
      (16 ≤ source.toNat ∨ 6000 ≤ (last - first).toNat ∨ mask = 0 ∨
        (source.toNat ≠ s.control.id.val ∧ s.control.charter.mirrorShare = 0) ∨
        (s.server.queue.length = 8 ∧ ∀ q ∈ s.server.queue, ¬ (q.id.requester = k ∧
          q.id.source.val = source.toNat ∧ q.id.mask = mask ∧ q.id.first = first ∧
          q.id.last = last))) →
      exec (.recallRequest k tag holder source mask first last) s =
        .next (s.raise .recallService .recallRefused k.val tag).finish) ∧
    (s.raised = [] → (s.store.op ≠ none ∨ s.stWait = true) →
      s.finish = s ∧
      (s.raise .recallService .recallRefused k.val tag).finish =
        { s with notices := (s.notices.join s.windowInFlight
          { kind := .recallRefused, slice := s.clock.index, subject := byte k.val
            detail := tag }) })

/-- SLOT_READ_END (R125, R145, R148, R151), with ST_WAIT held: the read's item joins the buffer, a block
item, its condition code as read and UNSENT for an own page alone, when the slot verifies and a CORRUPT gap
item for the one lane when it does not; a read marked discarded adds none; the DRAM is unchanged. Outside a
reading period no more is produced; in one, the claim for the next lane of the request is presented when the
room allows (R144), and after the last lane of its last slice its DONE item is produced, which counts the
whole answer, and the read position goes to the request behind it or rests (R147). What the own ring and the
mirror ring answer to a lookup (R116, R117). A lookup that finds no slot gives a gap item (R145, R146):
ABSENT for the one lane; any other outcome at the mask's lowest lane for the whole mask up to the latest
slice with the same answer, and at a higher lane for the lanes from it on in that slice alone. A gap that
ends the last request is followed by its DONE item within the grant that took the claim (R133). -/
def Obligations.SlotReadJoinsBuffer : Prop :=
  (∀ (c : Claim) (page : Nat) (damage : List (Fin 512 × Byte)) (r : RecallId) (t : Slice) (l : Lane)
    (discard : Bool) (s : State), s.resetN = true → s.stWait = true →
    s.store.op = some (.readSlot c page) → page < storePages s.control.sizeCode →
    s.server.inFlight =
      some { pos := { request := r, place := .slot t l }, discard := discard } →
    let bytes := damaged (Memory.readBytes s.dram (slotAddress page c.lane) 512) damage
    let item := if slotGood bytes c then
        RecallItem.block (slotBlock bytes c) (byteAt bytes 10)
          (decide (c.source = s.control.id) && (byteAt bytes 11).getLsbD 2)
      else .gap (BitVec.twoPow 8 l.val) t t .corrupt
    ∃ u, exec (.slotReadEnd damage) s = .next u ∧
      (s.server.reading = false →
        u.server.buffer = s.server.buffer ++ (if discard then [] else
          [{ request := r, place := .slot t l, handed := false, item := item }]) ∧
        u.server = { s.server with
          buffer := u.server.buffer, inFlight := none, pos := u.server.pos }) ∧
      (s.server.reading = true → discard = false → s.server.claim = none →
        ∀ k : Lane, l < k → r.mask.getLsbD k.val = true →
        (∀ j : Lane, l < j → j < k → r.mask.getLsbD j.val = false) →
        (s.server.buffer.map (fun i => i.item.size)).sum + item.size + 336 ≤ 19940 →
        u.server = { s.server with
          buffer := s.server.buffer ++
            [{ request := r, place := .slot t l, handed := false, item := item }]
          inFlight := none, pos := some { request := r, place := .slot t k }
          claim := some { source := r.source, slice := t, lane := k } }) ∧
      (s.server.reading = true → discard = false → s.server.claim = none → t = r.last →
        (∀ k : Lane, l < k → r.mask.getLsbD k.val = false) →
        (∀ i ∈ s.server.buffer, i.isDoneOf r = false) →
        ∀ q ahead rest, s.server.queue = ahead ++ q :: rest → (∀ x ∈ ahead, x.id ≠ r) →
        q.id = r →
        let read := s.server.buffer ++
          [{ request := r, place := .slot t l, handed := false, item := item }]
        let room (n : Nat) : Prop :=
          (s.server.buffer.map (fun i => i.item.size)).sum + item.size + n ≤ 19940
        let done : BufferItem :=
          { request := r, place := .done, handed := false
            item := .done (q.blocksSent + read.countP fun i => i.isBlockOf r)
              (q.gapsSent + read.countP fun i => i.isGapOf r) }
        (rest = [] → room 8 → u.server = { s.server with
          buffer := read ++ [done], inFlight := none
          pos := some { request := r, place := .done } }) ∧
        (∀ n more, rest = n :: more → room (8 + 336) → u.server = { s.server with
          buffer := read ++ [done], inFlight := none, pos := some n.id.start
          claim := some { source := n.id.source, slice := n.id.first
                          lane := lowestLane n.id.mask } })) ∧
      u = { s with
        store := { s.store with op := none }, server := u.server
        notices := u.notices, freeUses := u.freeUses, raised := [] }) ∧
  (∀ (g : Rings) (t : Slice) (l : Lane),
    let after : Prop := ∃ h, g.own.high = some h ∧ before h t = true
    (∀ p more rest, g.own.pages = more ++ p :: rest → p.slice = t → (∀ q ∈ more, q.slice ≠ t) →
      g.lookupOwn t l = (if p.absent.getLsbD l.val then .absent else .held p)) ∧
    ((∀ p ∈ g.own.pages, p.slice ≠ t) →
      (after → g.lookupOwn t l = .notYet) ∧
      (¬ after → g.own.pages = [] → g.lookupOwn t l = .beforeRetention) ∧
      (¬ after → ∀ p rest, g.own.pages = p :: rest →
        g.lookupOwn t l = (if before t p.slice then .beforeRetention else .missing)))) ∧
  (∀ (g : Rings) (current : Option StationId) (k : StationId) (t : Slice) (l : Lane),
    let inRun : Prop := ∃ u ∈ g.runs, u.source = k ∧ before t u.first = false ∧
      before u.last t = false
    (inRun → ∀ p more rest, g.mirror.pages = more ++ p :: rest → p.slice = t → p.source = k →
      (∀ q ∈ more, ¬ (q.slice = t ∧ q.source = k)) →
      g.lookupMirror current k t l = (if p.absent.getLsbD l.val then .absent else .held p)) ∧
    (inRun → (∀ p ∈ g.mirror.pages, ¬ (p.slice = t ∧ p.source = k)) →
      g.lookupMirror current k t l = .missing) ∧
    (¬ inRun → g.lookupMirror current k t l =
      (if current = some k ∧ ∃ u, openRunOf g.runs k = some u ∧ before u.last t = true
        then .notYet else .missing))) ∧
  (∀ (r : RecallId) (t : Slice) (l : Lane) (s : State), r.mask.getLsbD l.val = true →
    s.server.pos = some { request := r, place := .slot t l } →
    let made (item : RecallItem) (next : Place) : State := { s with server := { s.server with
      buffer := s.server.buffer ++
        [{ request := r, place := .slot t l, handed := false, item := item }]
      pos := some { request := r, place := next } } }
    let after (u : Slice) : Place := if u = r.last then .done else .slot (u + 1) (lowestLane r.mask)
    (∀ k : Lane, l < k → r.mask.getLsbD k.val = true →
      (∀ j : Lane, l < j → j < k → r.mask.getLsbD j.val = false) →
      s.produceLookup .absent = made (.gap (BitVec.twoPow 8 l.val) t t .absent) (.slot t k)) ∧
    ((∀ k : Lane, l < k → r.mask.getLsbD k.val = false) →
      s.produceLookup .absent = made (.gap (BitVec.twoPow 8 l.val) t t .absent) (after t)) ∧
    (∀ found o, (found, o) ∈ [(Lookup.notYet, GapOutcome.notYet),
        (.beforeRetention, .beforeRetention), (.missing, .missing)] →
      ((∀ j : Lane, j < l → r.mask.getLsbD j.val = false) →
        ∃ e : Slice, (e - t).toNat ≤ (r.last - t).toNat ∧
          (∀ u : Slice, u ≠ t → (u - t).toNat ≤ (e - t).toNat →
            s.lookup r.source u l = found) ∧
          (e ≠ r.last → s.lookup r.source (e + 1) l ≠ found) ∧
          s.produceLookup found = made (.gap r.mask t e o) (after e)) ∧
      (∀ j : Lane, j < l → r.mask.getLsbD j.val = true →
        ∃ m : BitVec 8,
          (∀ i : Lane, m.getLsbD i.val = (decide (l ≤ i) && r.mask.getLsbD i.val)) ∧
          s.produceLookup found = made (.gap m t t o) (after t)))) ∧
  (∀ (q : RecallRequest) (t : Slice) (l : Lane) (c : Claim) (found : Lookup) (o : GapOutcome)
    (s : State), s.resetN = true → s.store.op = none → s.store.phase = .ready → s.raised = [] →
    s.store.debt = 0 → s.store.capture = [] → s.store.mirror = [] → s.server.claim = some c →
    c = { source := q.id.source, slice := t, lane := l } →
    s.server.pos = some { request := q.id, place := .slot t l } → s.server.queue = [q] →
    s.server.reading = true → s.server.inFlight = none →
    (∀ i ∈ s.server.buffer, i.isDoneOf q.id = false) →
    (s.server.buffer.map (fun i => i.item.size)).sum + 24 ≤ 19940 →
    q.id.mask.getLsbD l.val = true → (∀ j : Lane, j < l → q.id.mask.getLsbD j.val = false) →
    (found, o) ∈ [(Lookup.notYet, GapOutcome.notYet), (.beforeRetention, .beforeRetention),
      (.missing, .missing)] →
    (∀ u : Slice, (u - t).toNat ≤ (q.id.last - t).toNat → s.lookup q.id.source u l = found) →
    exec .stWaitReleased s = .next { s with
      stWait := false
      server := { s.server with
        claim := none, pos := some { request := q.id, place := .done }
        buffer := s.server.buffer ++
          [{ request := q.id, place := .slot t l, handed := false
             item := .gap q.id.mask t q.id.last o },
           { request := q.id, place := .done, handed := false
             item := .done (q.blocksSent + s.server.buffer.countP fun i => i.isBlockOf q.id)
               (q.gapsSent + s.server.buffer.countP (fun i => i.isGapOf q.id) + 1) }] } })

/-- RECALL_WINDOW_START (R47, R149, R152). With the transmitter SILENT in the reading period of a held
slice the reading period ends and a presented claim is withdrawn; when transmission is allowed and the
buffer holds items, every item is handed and the recall frame of all of them is driven, its bytes those of
Table 11-12; otherwise nothing else changes. Outside a reading period, or while the station drives, the
command has no effect (logs 3, 29). Another station accepts such a frame and reads its sender (R51, R53);
that it accepts one of no items, and of items whose fields lie outside Table 11-12, is the model's choice
(log 14). -/
def Obligations.RecallWindowHandsBuffer : Prop :=
  (∀ s : State, s.resetN = true →
    (s.link.tx = .silent → s.server.reading = true → s.mayTransmit = true →
      s.server.buffer ≠ [] →
      exec .recallWindowStart s = .next { s with
        link := { s.link with
          tx := .sendingRecall, rx := .readback
          flight := some (.recallFrame s.server.buffer.length
            (lineBytes (recallProper s.control.id s.clock.index s.server.buffer)))
          leadIn := if s.link.rx = .receiving then none else s.link.leadIn
          rejects := if s.link.rx = .receiving then s.link.rejects + 1 else s.link.rejects }
        server := { s.server with
          reading := false, claim := none
          buffer := s.server.buffer.map (fun i => { i with handed := true }) } }) ∧
    (s.link.tx = .silent → s.server.reading = true →
      (s.mayTransmit = false ∨ s.server.buffer = []) →
      exec .recallWindowStart s =
        .next { s with server := { s.server with reading := false, claim := none } }) ∧
    ((s.link.tx ≠ .silent ∨ s.server.reading = false) →
      exec .recallWindowStart s = .next s)) ∧
  (∀ (id j : StationId) (t : Slice) (items : List BufferItem), j ≠ id →
    (items.map fun i => i.item.size).sum ≤ 19940 →
    (∀ i ∈ items, ∀ b c u, i.item = .block b c u → b.samples.length = 160) →
    let proper := recallProper id t items
    proper.length = 16 + (items.map fun i => i.item.size).sum ∧
    judgeFrame j (proper ++ le32 (crc32 proper)) = .recallFrame id)

/-- RECALL_FRAME_SENT (R47, R150): H becomes this station, the handed items leave the buffer, each
request's counts rise by its items in the frame, the requests whose DONE item was carried leave the
queue in order, and the cursor goes to the first item left, also where a request became the head (R150
against R143: the model's choice, log 41). When none is left it goes to the start of the new head when the
queue has a new head, else to the read position (log 9). -/
def Obligations.RecallFrameSentSettles : Prop :=
  ∀ (n : Nat) (bytes : List Byte) (s : State), s.resetN = true →
    s.link.flight = some (.recallFrame n bytes) →
    ∃ t, exec .recallFrameSent s = .next t ∧
      t.server.buffer = s.server.buffer.filter (fun i => !i.handed) ∧
      t.server.queue =
        (s.server.queue.filter (fun q =>
          !(s.server.buffer.any (fun i => i.handed && i.isDoneOf q.id)))).map (fun q =>
            { q with
              blocksSent := q.blocksSent +
                s.server.buffer.countP (fun i => i.handed && i.isBlockOf q.id)
              gapsSent := q.gapsSent +
                s.server.buffer.countP (fun i => i.handed && i.isGapOf q.id) }) ∧
      (t.server.queue = [] → t.server.cursor = none ∧ t.server.pos = none) ∧
      (∀ i rest, t.server.queue ≠ [] → t.server.buffer = i :: rest →
        t.server.cursor = some { request := i.request, place := i.place }) ∧
      (∀ q rest old more, t.server.queue = q :: rest → t.server.buffer = [] →
        s.server.queue = old :: more →
        t.server.cursor = (if old.id = q.id then s.server.pos else some q.id.start)) ∧
      t.server = { s.server with
        queue := t.server.queue, buffer := t.server.buffer, cursor := t.server.cursor
        pos := t.server.pos } ∧
      t = { s with
        server := t.server
        link := { s.link with
          tx := .silent, flight := none, rx := .hunting, lastHolder := s.control.id } }

/-- RECALL_FRAME_ABORTED (R34, R48, R57, R151): in a half-cell of the line code, with all before it read as
driven, the receiver reads another level than the station drives. H and the queue stay, the buffer is
discarded, the read position goes back to the cursor, a read in flight is marked, and COLLISION with subject
1 and the number of bytes driven completely before that half-cell's byte joins the notices. While every
half-cell read agrees with what is driven nothing happens (log 3). -/
def Obligations.RecallFrameAbortedRewinds : Prop :=
  ∀ (n : Nat) (bytes : List Byte) (read : List LineLevel) (s : State), s.resetN = true →
    s.raised = [] → s.link.flight = some (.recallFrame n bytes) →
    (∀ (i : Nat) (d r : LineLevel), (lineLevels bytes)[i]? = some d → read[i]? = some r → d ≠ r →
      (∀ j : Nat, j < i → (lineLevels bytes)[j]? = read[j]?) →
      exec (.recallFrameAborted read) s = .next { s with
        link := { s.link with
          tx := .silent, flight := none, rx := .hunting, collisions := s.link.collisions + 1 }
        server := { s.server with
          buffer := [], pos := s.server.cursor
          inFlight := s.server.inFlight.map (fun f => { f with discard := true }) }
        notices := (s.notices.join false
          { kind := .collision, slice := s.clock.index, subject := 1
            detail := BitVec.ofNat 16 (min (i / 16) 65535) }) }) ∧
    ((∀ (i : Nat) (d r : LineLevel), (lineLevels bytes)[i]? = some d → read[i]? = some r → d = r) →
      exec (.recallFrameAborted read) s = .next s)

/-! ### Room link -/

/-- OWN_WINDOW_START where R43 allows transmission (R34, R38, R44, R176): the frame in flight records what
it carries, its bytes are lead-in, frame proper and CRC-32, and no queue loses anything yet. The line code of
a frame driven: sixteen half-cells a byte, the least significant bit first, no gap between bytes; every bit
cell begins with a change of polarity, and has a second one at its middle for a 1 bit alone. -/
def Obligations.OwnWindowDrivesFrame : Prop :=
  (∀ bytes : List Byte, (lineLevels bytes).length = 16 * bytes.length ∧
    ∀ (i k : Nat) (b : Byte), bytes[i]? = some b → k < 8 →
      ∃ x y, (lineLevels bytes)[16 * i + 2 * k]? = some x ∧
        (lineLevels bytes)[16 * i + 2 * k + 1]? = some y ∧ x ≠ .zero ∧ y ≠ .zero ∧
        (b.getLsbD k = true ↔ x ≠ y) ∧
        ∀ (n : Nat) (z : LineLevel), n + 1 = 16 * i + 2 * k →
          (lineLevels bytes)[n]? = some z → z ≠ x) ∧
  ∀ s : State, s.resetN = true → s.link.tx = .silent → s.active = true →
    s.clock.discipline ≠ .realign →
    ∃ t, exec .ownWindowStart s = .next t ∧
      t.link = { s.link with
        tx := .sendingWindow, rx := .readback
        flight := some (.windowFrame (s.awaitingPage.map OwnPage.slice)
          (min 24 s.spans.outbox.length) (min 4 s.notices.entries.length) s.framePlan
          (!s.server.queue.isEmpty)
          (leadInBytes ++ s.windowProper ++ le32 (crc32 s.windowProper)))
        leadIn := if s.link.rx = .receiving then none else s.link.leadIn
        rejects := if s.link.rx = .receiving then s.link.rejects + 1 else s.link.rejects } ∧
      s.notices.entries <+: t.notices.entries ∧
      t.notices.carried = some (min 4 s.notices.entries.length, s.notices.dropped) ∧
      t.lineDriven =
        lineLevels (leadInBytes ++ s.windowProper ++ le32 (crc32 s.windowProper)) ∧
      t.store.capture = s.store.capture ∧
      t = { s with
        link := t.link, rings := t.rings, store := t.store, server := t.server
        notices := t.notices, freeUses := t.freeUses, raised := [] }

/-- OWN_WINDOW_START where R43 forbids transmission: the window passes in silence and the awaiting page
is settled UNSENT (R31); outbox, notices and periodic items keep their contents. -/
def Obligations.SuppressedWindowSettlesUnsent : Prop :=
  ∀ s : State, s.resetN = true → s.link.tx = .silent →
    (s.active = false ∨ s.clock.discipline = .realign) →
    ∃ t, exec .ownWindowStart s = .next t ∧
      t.store.capture = s.store.capture.map (fun p =>
        if p.outcome = .awaiting then { p with outcome := .unsent } else p) ∧
      t.seat = { s.seat with
        unsentSlices := s.seat.unsentSlices + (if s.awaitingPage.isSome then 1 else 0) } ∧
      s.notices.entries <+: t.notices.entries ∧
      t = { s with
        seat := t.seat, rings := t.rings, store := t.store, server := t.server
        notices := t.notices, freeUses := t.freeUses, raised := [] }

/-- WINDOW_FRAME_SENT (R45, R54, R129, R176): the page is SENT, the carried items leave the outbox and
the carried notices the queue, the placed periodic items stop being pending, the claim adds this station
to the claim set, and a COUNTER_REPORT carried sets the peak debt to the debt. The dropped count takes the
number dropped since assembly, which is then 0 (the table of 10.5), before the notices of the command's end
join (log 40). -/
def Obligations.WindowFrameSentDrains : Prop :=
  ∀ (page : Option Slice) (n m : Nat) (periodic : List PlanItem) (claim : Bool) (bytes : List Byte)
    (s : State), s.resetN = true →
    s.link.flight = some (.windowFrame page n m periodic claim bytes) →
    ∃ u t : State, exec .windowFrameSent s = .next t ∧ t = u.finish ∧
      (∀ x y, s.notices.carried = some (x, y) →
        u.notices = { s.notices with
          entries := s.notices.entries.drop x, dropped := s.notices.droppedSince
          droppedSince := 0, carried := none } ∧
        (s.raised = [] → (s.store.op ≠ none ∨ s.stWait = true) → t.notices = u.notices)) ∧
      t.spans = { s.spans with outbox := s.spans.outbox.drop n } ∧
      (∀ p, p ∈ t.link.due ↔ p ∈ s.link.due ∧ p ∉ periodic) ∧
      (∀ k, k ∈ t.link.claims ↔ k ∈ s.link.claims ∨ (claim = true ∧ k = s.control.id)) ∧
      t.link = { s.link with
        tx := .silent, flight := none, rx := .hunting, due := t.link.due
        claims := t.link.claims } ∧
      (page.isSome = true → t.store.capture = s.store.capture.map (fun p =>
        if p.outcome = .awaiting then { p with outcome := .sent } else p)) ∧
      (page = none → t.store.capture = s.store.capture) ∧
      t.store.peak = (if .counterReport ∈ periodic then s.store.debt else s.store.peak) ∧
      (∀ x y, s.notices.carried = some (x, y) →
        s.notices.entries.drop x <+: t.notices.entries ∧ t.notices.carried = none) ∧
      t = { s with
        link := t.link, spans := t.spans, rings := t.rings, store := t.store
        server := t.server, notices := t.notices, freeUses := t.freeUses, raised := [] }

/-- WINDOW_FRAME_ABORTED (R31, R34, R46, R57, R176): in a half-cell of the line code, with all before it
read as driven, the receiver reads another level than the station drives. The page is UNSENT, the queues and
the periodic markings keep their contents, no claim is added, the collision is counted, and COLLISION with
subject 0 and the number of bytes driven completely before that half-cell's byte is among the notices that
join; a full queue drops it without raising dropped since assembly, and so it does a notice the rings raise
at that instant, and dropped since assembly keeps its value (the model's choices, logs 37, 42 and 45). While
every half-cell read agrees with what is driven nothing happens (log 3). Two peers that drive the line and
first differ in a half-cell both read a mismatch in it. -/
def Obligations.WindowFrameAbortedKeepsQueues : Prop :=
  (∀ (page : Option Slice) (n m : Nat) (periodic : List PlanItem) (claim : Bool)
    (bytes : List Byte) (read : List LineLevel) (s : State), s.resetN = true →
    s.link.flight = some (.windowFrame page n m periodic claim bytes) →
    (∀ (i : Nat) (d r : LineLevel), (lineLevels bytes)[i]? = some d → read[i]? = some r → d ≠ r →
      (∀ j : Nat, j < i → (lineLevels bytes)[j]? = read[j]?) →
      let collision : Notice :=
        { kind := .collision, slice := s.clock.index, subject := 0
          detail := BitVec.ofNat 16 (min (i / 16) 65535) }
      ∃ u t : State, exec (.windowFrameAborted read) s = .next t ∧ t = u.finish ∧
        u.notices = { s.notices with carried := none } ∧ u.link = t.link ∧
        ({ raiser := .link, notice := collision } : Raised) ∈ u.raised ∧
        (s.raised = [] → (s.store.op ≠ none ∨ s.stWait = true) →
          t.notices = { s.notices with carried := none }.join false collision) ∧
        t.link = { s.link with
          tx := .silent, flight := none, rx := .hunting
          collisions := s.link.collisions + 1 } ∧
        (page.isSome = true → t.store.capture = s.store.capture.map (fun p =>
          if p.outcome = .awaiting then { p with outcome := .unsent } else p)) ∧
        (page = none → t.store.capture = s.store.capture) ∧
        t.seat = { s.seat with
          unsentSlices := s.seat.unsentSlices +
            (if page.isSome = true ∧ s.awaitingPage.isSome = true then 1 else 0) } ∧
        s.notices.entries <+: t.notices.entries ∧ t.notices.carried = none ∧
        t = { s with
          seat := t.seat, link := t.link, rings := t.rings, store := t.store
          server := t.server, notices := t.notices, freeUses := t.freeUses, raised := [] }) ∧
    ((∀ (i : Nat) (d r : LineLevel), (lineLevels bytes)[i]? = some d → read[i]? = some r → d = r) →
      exec (.windowFrameAborted read) s = .next s)) ∧
  ∀ (a b : List Byte) (i : Nat) (x y : LineLevel), (lineLevels a)[i]? = some x →
    (lineLevels b)[i]? = some y → x ≠ y →
    (∀ j, j < i → (lineLevels a)[j]? = (lineLevels b)[j]?) →
    let line := List.zipWith mixed (lineLevels a) (lineLevels b)
    bytesBeforeMismatch a line = some (i / 16) ∧ bytesBeforeMismatch b line = some (i / 16) ∧
      line.getD i .up = .zero

/-- Reception (R50, R51). LEAD_IN_FOUND in HUNTING, after its counts have passed within the sample period
(log 4), records the clock's slice and count position at the start of the first byte (log 33): in the
slice in progress, or in the slice that ended last when the pattern spans the boundary.
FRAME_HEADER_RECEIVED: a header that fixes a length beyond its kind's limit, by the least length its
counts allow (log 15), and FRAME_CUT_BY_SILENCE reject the frame and count it. Outside their receiver
states the three change nothing else (log 3). What is rejected at a frame's end: a wrong CRC, another
frame kind, a frame beyond its kind's limit, a frame of this station's own ID. The line as the receiver
reads it (R34): a frame's half-cells give its bytes and no silence, and five half-cells without a change,
which is more than two bit cells, are silence. -/
def Obligations.ReceptionSteps : Prop :=
  (∀ bytes : List Byte, readLevels (lineLevels bytes) = bytes ∧
    readsSilence (lineLevels bytes) = false) ∧
  (∀ (x : LineLevel) (a b : List LineLevel),
    readsSilence (a ++ List.replicate 5 x ++ b) = true) ∧
  (∀ (wait ago : Nat) (s : State), s.resetN = true →
    let d := max s.clock.divider
      (min (s.clock.divider + wait) (periodLength s.clock.applied s.clock.samplePos - 1))
    let passed : State := { s with
      clock := { s.clock with divider := d }
      store := { s.store with pauseTime :=
        if s.store.phase = .pause then max s.store.pauseTime (min (s.store.pauseTime + wait) 4800)
        else s.store.pauseTime } }
    (s.link.rx = .hunting → ago ≤ s.clock.elapsed + d → exec (.leadInFound wait ago) s =
      .next { passed with link := { s.link with
        rx := .receiving
        leadIn := some { slice := s.clock.index, count := s.clock.elapsed + d - ago
                         boundaries := 0 } } }) ∧
    (s.link.rx = .hunting → s.clock.elapsed + d < ago → ∀ t, s.clock.lastIndex = some t →
      ago ≤ s.clock.lastLen + (s.clock.elapsed + d) → exec (.leadInFound wait ago) s =
      .next { passed with link := { s.link with
        rx := .receiving
        leadIn := some { slice := t, count := s.clock.lastLen + (s.clock.elapsed + d) - ago
                         boundaries := 1 } } }) ∧
    ((s.link.rx ≠ .hunting ∨ (s.clock.elapsed + d < ago ∧ (s.clock.lastIndex = none ∨
        s.clock.lastLen + (s.clock.elapsed + d) < ago))) →
      exec (.leadInFound wait ago) s = .next passed)) ∧
  (∀ (h : List Byte) (s : State), s.resetN = true →
    let window : Nat := 52 + 332 * (byteAt h 0x14).toNat + 16 * (byteAt h 0x15).toNat
      + 12 * (byteAt h 0x16).toNat + 4 * (byteAt h 0x17).toNat + 4 * (half16 h 0x18).toNat
    let recallLen : Nat := 20 + max (8 * (half16 h 2).toNat) (word32 h 8).toNat
    let tooLong : Prop := (byteAt h 0 = 1 ∧ 3560 < window) ∨ (byteAt h 0 = 2 ∧ 19960 < recallLen)
    (byteAt h 0 = 1 → headerLeastLength h = window) ∧
    (byteAt h 0 = 2 → headerLeastLength h = recallLen) ∧
    (s.link.rx = .receiving → tooLong → exec (.frameHeaderReceived h) s =
      .next { s with link := { s.link with
        rx := .hunting, leadIn := none, rejects := s.link.rejects + 1 } }) ∧
    ((s.link.rx ≠ .receiving ∨ ¬ tooLong) → exec (.frameHeaderReceived h) s = .next s)) ∧
  (∀ s : State, s.resetN = true →
    (s.link.rx = .receiving → exec .frameCutBySilence s = .next { s with link := { s.link with
        rx := .hunting, leadIn := none, rejects := s.link.rejects + 1 } }) ∧
    (s.link.rx ≠ .receiving → exec .frameCutBySilence s = .next s)) ∧
  (∀ (id : StationId) (bs : List Byte),
    (crcGood bs = false → judgeFrame id bs = .rejected) ∧
    (byteAt bs 0 ≠ 1 → byteAt bs 0 ≠ 2 → judgeFrame id bs = .rejected) ∧
    (byteAt bs 0 = 1 → 3560 < bs.length → judgeFrame id bs = .rejected) ∧
    (byteAt bs 0 = 2 → 19960 < bs.length → judgeFrame id bs = .rejected) ∧
    ((byteAt bs 1).toNat = id.val → judgeFrame id bs = .rejected))

/-- Recall frames received (R53): an accepted one sets H to its sender and does nothing else, and a
rejected one leaves H unchanged. -/
def Obligations.RecallFrameReceived : Prop :=
  ∀ (bs : List Byte) (s : State), s.resetN = true → s.link.rx = .receiving →
    (∀ k, judgeFrame s.control.id bs = .recallFrame k → exec (.frameReceived bs) s =
      .next { s with link := { s.link with rx := .hunting, leadIn := none, lastHolder := k } }) ∧
    (judgeFrame s.control.id bs = .rejected → exec (.frameReceived bs) s =
      .next { s with link := { s.link with
        rx := .hunting, leadIn := none, rejects := s.link.rejects + 1 } })

/-- FRAME_RECEIVED of an accepted window frame (R52, R54, R61): the sender's entry is PRESENT with the
header's values and silence 0; a claim joins the claim set; the receiver hunts again. A header of another
join slice or kind is a new incarnation (R62, R100), a LOST peer's own header a return (R63, R99):
PEER_JOINED is among the notices that join the queue, and Spans and the recall service act. The lead-in of
the reference's frame is measured in TRACKING and LOCKED (R8), and what the measurement raises is among the
notices that join; the first fitting frame makes the step plan
in FREE and in REALIGN (R13, R15). The mirror source's blocks become a staged mirror page, when two
are staged in place of the oldest not begun (R136), and a frame of it without blocks closes the OPEN run
(R108, R112). The reference's condition is followed before RUN and
IDLE, and once after a join it corrects this station's (R163). -/
def Obligations.WindowFrameAccepted : Prop :=
  ∀ (bs : List Byte) (f : WindowFrame) (s : State), s.resetN = true → s.link.rx = .receiving →
    judgeFrame s.control.id bs = .windowFrame f →
    let k := f.header.sender
    let e := look s.roster.entries k
    let same : Prop := e.join = some f.header.join ∧ e.kind = some f.header.kind
    let isNew : Prop := e.state ≠ .absent ∧ ¬ same
    let joined (detail : Half) : Raised :=
      { raiser := .roster
        notice := { kind := .peerJoined, slice := s.clock.index, subject := byte k.val
                    detail := detail } }
    let since (l : LeadIn) : Nat :=
      if l.boundaries = 0 then 0
      else if l.boundaries = 1 then s.clock.lastLen else s.clock.lastLen + s.clock.prevLen
    let plan (l : LeadIn) : StepPlan :=
      { count := l.count + 240000 - (1200 + 10800 * k.val) - since l, index := f.header.index + 1 }
    ∃ u t : State, exec (.frameReceived bs) s = .next t ∧ t = u.finish ∧ u.notices = s.notices ∧
      (look t.roster.entries k).state = .present ∧
      (look t.roster.entries k).kind = some f.header.kind ∧
      (look t.roster.entries k).activity =
        (if f.header.kind = .capture then f.header.activity else none) ∧
      (look t.roster.entries k).join = some f.header.join ∧
      (look t.roster.entries k).lastHeard = some f.header.index ∧
      (look t.roster.entries k).silence = 0 ∧
      (look t.roster.entries k).digest = some f.header.digest ∧
      (look t.roster.entries k).mirror = f.header.mirror ∧
      (look t.roster.entries k).lock = f.header.lock ∧
      (∀ b rest, f.blocks = b :: rest → (look t.roster.entries k).lastBlock = some b.slice) ∧
      (f.blocks = [] → (look t.roster.entries k).lastBlock = e.lastBlock ∨ isNew) ∧
      (∀ j, j ∈ t.link.claims ↔ j ∈ s.link.claims ∨ (f.header.claim = true ∧ j = k)) ∧
      t.link = { s.link with rx := .hunting, leadIn := none, claims := t.link.claims } ∧
      t.seat = s.seat ∧ t.dram = s.dram ∧ t.pending = s.pending ∧ t.stWait = s.stWait ∧
      t.stopN = s.stopN ∧ t.resetN = s.resetN ∧ t.control.id = s.control.id ∧
      (e.state = .absent → joined 0 ∈ u.raised) ∧
      (e.state = .lost → same → joined 1 ∈ u.raised) ∧
      (e.state = .lost → ¬ same → joined 2 ∈ u.raised) ∧
      (e.state = .present → ¬ same → joined 3 ∈ u.raised) ∧
      (isNew → (∀ r ∈ t.spans.custody, r.peer ≠ k) ∧
        (f.requests = [] → ∀ q ∈ t.server.queue, q.id.requester ≠ k) ∧
        (f.spans = [] → f.beacons = [] → t.spans.table = s.spans.table.map (fun x =>
          if x.live = true ∧ x.key.owner = k then
            { x with
              status := .closed
                (if before (e.lastBlock.getD x.key.openSlice) x.key.openSlice then x.key.openSlice
                  else e.lastBlock.getD x.key.openSlice) .stationLost
              announcedBy := s.control.id }
          else x))) ∧
      (e.state = .lost → same → f.spans = [] → f.beacons = [] →
        (∀ r, s.spans.custody.find? (fun r => decide (r.peer = k ∧ r.join = some f.header.join)) =
            some r → s.spans.outbox.length + r.items.length ≤ 64 →
          t.spans.outbox = s.spans.outbox ++ r.items ∧ ∀ x ∈ t.spans.custody, x.peer ≠ k) ∧
        t.spans.table = s.spans.table) ∧
      (∀ l, s.link.leadIn = some l → s.roster.reference = some k → t.roster.reference = some k →
        (s.clock.discipline = .tracking ∨ s.clock.discipline = .locked) →
        t.clock = { (s.measureFrame l k f.header.index).clock with mark := t.clock.mark } ∧
        ∀ r ∈ (s.measureFrame l k f.header.index).raised, r ∈ u.raised) ∧
      (∀ l, s.link.leadIn = some l → s.roster.reference = some k → t.roster.reference = some k →
        s.clock.discipline = .realign → s.clock.plan = none →
        t.clock = { s.clock with plan := some (plan l), mark := t.clock.mark }) ∧
      (∀ l, s.link.leadIn = some l → s.clock.discipline = .free → f.header.kind = .capture →
        f.header.activity ≠ none → s.clock.aligned = false → s.clock.plan = none →
        (∀ j, j < k → (s.entry j).candidate = false) →
        t.clock = { s.clock with plan := some (plan l), mark := t.clock.mark }) ∧
      (t.roster.mirror = some k → s.stWait = true →
        (∀ b rest, f.blocks = b :: rest → s.store.mirror = [] →
          ∃ p, t.store.mirror = [p] ∧ p.slice = b.slice ∧ p.source = k ∧ p.slots.length = 8 ∧
            ∀ l : Lane, p.slots[l.val]? = some (f.blocks.find? fun x => decide (x.lane = l))) ∧
        (∀ x y, f.blocks ≠ [] → s.store.mirror = [x, y] →
          let dropped := if s.store.mirrorWrite = none then x else y
          t.store.mirror.head? = some (if s.store.mirrorWrite = none then y else x) ∧
          t.store.mirror.length = 2 ∧ t.store.drops = s.store.drops + 1 ∧
          ({ raiser := .store
             notice := { kind := .stagingOverflow, slice := s.clock.index, subject := 1
                         detail := sliceDetail dropped.slice } } : Raised) ∈ u.raised) ∧
        (f.blocks = [] → ∀ r ∈ t.rings.runs, r.isOpen = false)) ∧
      (t.roster.reference = some k → s.active = false →
        t.control.followed = some f.header.condition) ∧
      (t.roster.reference = some k → s.active = true → s.control.correction = true →
        t.control.correction = false ∧ t.control.pendingCondition =
          (if f.header.condition ≠ s.control.condition then some f.header.condition
          else s.control.pendingCondition))

/-- The holder of the recall window (R55): at each boundary, from the claims of the slice that has ended
and from H, the first claimant in the order H + 1 up to 15, then 0 up to H; H itself stays, and the claim
set begins empty. -/
def Obligations.RecallHolderRotates : Prop :=
  (∀ h : StationId, nextHolder h [] = none) ∧
  (∀ (h : StationId) (c : List StationId), c ≠ [] → ∃ k, nextHolder h c = some k ∧ k ∈ c ∧
    ∀ j ∈ c, (k - h - 1).val ≤ (j - h - 1).val) ∧
  (∀ (stopN : Bool) (s : State), s.resetN = true → s.clock.plan = none →
    ∃ t, exec (.sliceBoundary stopN) s = .next t ∧
      t.link.holder = nextHolder s.link.lastHolder s.link.claims ∧ t.link.claims = [] ∧
      t.link.lastHolder = s.link.lastHolder ∧
      t.server.holds = decide (t.link.holder = some t.control.id)) ∧
  (∀ (stopN : Bool) (s : State) (p : StepPlan), s.resetN = true → s.clock.plan = some p →
    ∃ t, exec (.stepBoundary stopN) s = .next t ∧
      t.link.holder = nextHolder s.link.lastHolder s.link.claims ∧ t.link.claims = [] ∧
      t.link.lastHolder = s.link.lastHolder ∧
      t.server.holds = decide (t.link.holder = some t.control.id))

/-- The periodic plan (R39, R40): at a boundary, ordinary or step, an item becomes pending when the new
index modulo its period equals its offset, and a pending item stays pending. -/
def Obligations.PeriodicItemsFallDue : Prop :=
  ∀ (stopN : Bool) (s : State), s.resetN = true →
    let pendingAfter (index : Slice) (t : State) : Prop :=
      let i := index.toNat
      let id := s.control.id.val
      (.spanBeacon ∈ t.link.due ↔ .spanBeacon ∈ s.link.due ∨ i % 100 = (6 * id) % 100) ∧
      (.rosterView ∈ t.link.due ↔ .rosterView ∈ s.link.due ∨ i % 50 = (3 * id) % 50) ∧
      (.mirrorRuns ∈ t.link.due ↔ .mirrorRuns ∈ s.link.due ∨ i % 100 = (6 * id + 50) % 100) ∧
      (.counterReport ∈ t.link.due ↔ .counterReport ∈ s.link.due ∨ i % 500 = (30 * id) % 500)
    (s.clock.plan = none →
      ∃ t, exec (.sliceBoundary stopN) s = .next t ∧ pendingAfter (s.clock.index + 1) t) ∧
    (∀ p, s.clock.plan = some p →
      ∃ t, exec (.stepBoundary stopN) s = .next t ∧ pendingAfter p.index t)

/-! ### Codecs and invariants -/

/-- The CRC-32 (R182): its register, its bit and byte steps, its place at the end of every frame driven,
the receiver's comparison, its value over the digits 1 to 9, the digest of a charter, and the defaults'
digest 0. -/
def Obligations.FrameCheck : Prop :=
  (∀ bs : List Byte, crc32 bs = ~~~(bs.foldl crc32Byte 0xFFFFFFFF#32)) ∧
  (∀ (reg : Word) (b : Byte), crc32Byte reg b =
    crc32Bit (crc32Bit (crc32Bit (crc32Bit (crc32Bit (crc32Bit (crc32Bit (crc32Bit reg
      (b.getLsbD 0)) (b.getLsbD 1)) (b.getLsbD 2)) (b.getLsbD 3)) (b.getLsbD 4)) (b.getLsbD 5))
      (b.getLsbD 6)) (b.getLsbD 7)) ∧
  (∀ (reg : Word) (bit : Bool), (reg.getLsbD 0 = bit → crc32Bit reg bit = reg >>> 1) ∧
    (reg.getLsbD 0 ≠ bit → crc32Bit reg bit = (reg >>> 1) ^^^ 0xEDB88320#32)) ∧
  crc32 [0x31, 0x32, 0x33, 0x34, 0x35, 0x36, 0x37, 0x38, 0x39] = 0xCBF43926#32 ∧
  (∀ proper : List Byte, lineBytes proper =
    leadInBytes ++ proper ++ [(crc32 proper).setWidth 8, (crc32 proper >>> 8).setWidth 8,
      (crc32 proper >>> 16).setWidth 8, (crc32 proper >>> 24).setWidth 8]) ∧
  (∀ s : State, ∃ page n m plan claim,
    s.windowFlight = .windowFrame page n m plan claim (lineBytes s.windowProper)) ∧
  (∀ s : State, ∃ n, s.driveRecall.link.flight = some (.recallFrame n
    (lineBytes (recallProper s.control.id s.clock.index s.server.buffer)))) ∧
  (∀ proper : List Byte, crcGood (proper ++ le32 (crc32 proper)) = true) ∧
  (∀ (id : StationId) (bs : List Byte), crcGood bs = false → judgeFrame id bs = .rejected) ∧
  State.reset.control.digest = 0 ∧
  (∀ (k : StationId) (body : List Byte) (c : Charter) (s : State), s.resetN = true →
    k ≠ s.control.id → (look s.roster.entries k).kind = some .console → body.length = 272 →
    readCharter body = .ok c → s.control.mode = some .listen → s.control.status = .unsettled →
    ∃ t, exec (.charter k body) s = .next t ∧ t.control.digest = crc32 body)

/-- A well-formed span item, written and then read, is itself (R87, Table 11-5): no bit of an item is
dropped. -/
def Obligations.SpanItemRoundTrip : Prop :=
  ∀ (i : SpanItem) (rest : List Byte), i.wf = true →
    (itemBytes i).length = itemSize i ∧ readSpanItem (itemBytes i ++ rest) = some (some i, rest)

/-- Another station accepts a window frame this station assembles in RUN or IDLE, whatever periodic items
are placed, and reads the header's values, the blocks, the span items and the beacon's entries it was
given (R36 to R38, R51, Tables 11-1 to 11-5 and 11-8, R182). -/
def Obligations.OwnFrameIsAccepted : Prop :=
  ∀ (s : State) (j : StationId), j ≠ s.control.id → s.active = true → s.frameBlocks.length ≤ 8 →
    blocksInOrder s.frameBlocks = true →
    (∀ b ∈ s.frameBlocks, b.samples.length = 160 ∧ b.missing ≤ 160 ∧ b.level ≤ 16) →
    (∀ i ∈ s.spans.outbox, i.wf = true) → (∀ i ∈ s.beaconEntries, i.wf = true) →
    s.link.due.Nodup →
    ∃ f : WindowFrame, judgeFrame j (s.windowProper ++ le32 (crc32 s.windowProper)) = .windowFrame f ∧
      f.header = {
        sender := s.control.id, kind := .capture, activity := s.activity
        index := s.clock.index, join := s.control.join.getD 0, digest := s.control.digest
        condition := s.control.condition, mirror := s.roster.mirror.map (fun k => byte k.val)
        lock := decide (s.clock.discipline = .locked), claim := !s.server.queue.isEmpty } ∧
      f.blocks = s.frameBlocks ∧ f.spans = s.spans.outbox.take 24 ∧
      (.spanBeacon ∈ s.framePlan → s.beaconEntries ∈ f.beacons ∧
        ∀ es ∈ f.beacons, es = s.beaconEntries ∨ es = []) ∧
      (.spanBeacon ∉ s.framePlan → ∀ es ∈ f.beacons, es = []) ∧ f.requests = []

/-- The DRAM's canonical form is kept by every step. -/
def Obligations.DramStaysCanonical : Prop :=
  ∀ s t : State, s.dramWf = true → step s = .next t → t.dramWf = true

/-- Every field of State.inRange stays within the range its chapter's state table gives, at every step:
trim, applied trim, divider, sample position and runs of the clock; each lane's samples, missing count,
largest magnitude, dead and live run and faulted length; silence counts; the detectors' and the orphans'
counts; span table, outbox and custody records; pause time, refreshes done, debt, peak, re-initialisations
and staging; the mirror runs; the recall queue and the bytes of the read buffer; the listen count and the
charter's ranges; the notice queue and its dropped counts. The rings' page lists are in the statement of
the store's partition; the requests' counts of items have no range here. -/
def Obligations.RangesKept : Prop :=
  ∀ s t : State, s.inRange = true → step s = .next t → t.inRange = true

/-- At State.reset the DRAM is in canonical form and every bounded field is within its range. -/
def Obligations.ResetWithinBounds : Prop :=
  State.reset.dramWf = true ∧ State.reset.inRange = true

/-- Notices raised join the queue, each once, in some order (R174; the order between blocks is the free
value of log 6), and in the order raised when one block raised them all: one after another each joins the
tail, or is dropped and counted when 64 stand. ALERT_N is low exactly while RESET_N is high and an entry of
ALERT severity is held (R177), and twelve kinds have that severity (R175). No step leaves one raised and not joined: the invariant
that the statements with the premise `raised = []` use. -/
def Obligations.NoticesSettle : Prop :=
  (∀ (n c : Nat) (rs : List Raised), (mergeRaised n c rs).1.Perm (rs.map Raised.notice)) ∧
  (∀ (n c : Nat) (rs : List Raised) (b : Raiser), (∀ r ∈ rs, r.raiser = b) →
    (mergeRaised n c rs).1 = rs.map Raised.notice) ∧
  (∀ s : State, ∃ order : List Notice, order.Perm (s.raised.map Raised.notice) ∧
    s.settleNotices = { s with
      notices := order.foldl (NoticeQueue.join s.windowInFlight) s.notices
      freeUses := s.settleNotices.freeUses, raised := [] }) ∧
  (∀ s : State, s.settleNotices.notices =
    (mergeRaised s.raised.length s.freeUses s.raised).1.foldl
      (NoticeQueue.join s.windowInFlight) s.notices) ∧
  (∀ (b : Bool) (q : NoticeQueue) (n : Notice),
    (q.entries.length < 64 → q.join b n = { q with entries := q.entries ++ [n] }) ∧
    (64 ≤ q.entries.length → q.join b n = { q with
      dropped := if q.dropped < 255 then q.dropped + 1 else 255
      droppedSince :=
        if b then (if q.droppedSince < 255 then q.droppedSince + 1 else 255)
        else q.droppedSince })) ∧
  (∀ s : State, s.alertN = false ↔
    s.resetN = true ∧ ∃ n ∈ s.notices.entries, n.kind.isAlert = true) ∧
  (∀ k : NoticeKind, k.isAlert = true ↔
    k ∈ [.alignmentLost, .ringRestarted, .storeFault, .laneFault, .unarchivedOverwrite,
      .stagingOverflow, .collision, .charterRejected, .charterIgnored, .recallRefused,
      .spanEvicted, .outboxOverflow]) ∧
  State.reset.raised = [] ∧
  ∀ s t : State, s.raised = [] → step s = .next t → t.raised = []

/-- The partition of the store (R102): P pages by the size code, shared out by m. Every step keeps the
places inside it: a ring's pages are at most its capacity, their places and the next one below it, and so
are the places of the page writes, and the page of the operation in progress is below P; from such a
state no step faults, and State.reset is one. No command is refused. The model's own stop (log 39): an
operation on a page outside the P pages (R122), which does not exist, faults with outsideStore at its
end. -/
def Obligations.OnlyOutsideStoreStops : Prop :=
  (storePages 0 = 65536 ∧ storePages 1 = 131072 ∧ storePages 2 = 262144 ∧ storePages 3 = 524288) ∧
  (∀ (code : BitVec 2) (m : Nat), m ≤ 8 →
    8 * ownCapacity code m = storePages code * (8 - m) ∧
    8 * mirrorCapacity code m = storePages code * m ∧
    ownCapacity code m + mirrorCapacity code m = storePages code) ∧
  State.reset.placesInside = true ∧
  (∀ s t : State, s.placesInside = true → step s = .next t → t.placesInside = true) ∧
  (∀ s : State, s.placesInside = true → ∃ t, step s = .next t) ∧
  (∀ (c : Instr) (s : State), (∀ r, exec c s ≠ .refused r) ∧
    (∀ r, exec c s = .fault r → r = .outsideStore ∧
      (c = .slotWriteEnd ∨ ∃ d, c = .slotReadEnd d))) ∧
  (∀ (kind : PageKind) (page : Nat) (lane : Lane) (bytes : List Byte) (live : Bool) (s : State),
    s.store.op = some (.writeSlot kind page lane bytes live) → storePages s.control.sizeCode ≤ page →
    exec .slotWriteEnd s = .fault .outsideStore) ∧
  (∀ (c : Claim) (page : Nat) (damage : List (Fin 512 × Byte)) (s : State),
    s.store.op = some (.readSlot c page) → storePages s.control.sizeCode ≤ page →
    exec (.slotReadEnd damage) s = .fault .outsideStore)
end

