-- ==== Sys2Proof/Laws/Memory.lean ====
section
/-! SUPPORT. What the DRAM operations do: every write keeps the canonical form, and a byte reads as it
was last written. -/

namespace Sys2Proof.Machine

/-- A canonical form from an address on is one from any lower address on. -/
theorem Memory.wfFrom_mono {lo lo' : Nat} (h : lo' ≤ lo) (m : List Host.Cell) :
    Memory.wfFrom lo m = true → Memory.wfFrom lo' m = true := by
  cases m with
  | nil => simp [Memory.wfFrom]
  | cons c m =>
    obtain ⟨a, b⟩ := c
    simp only [Memory.wfFrom, Bool.and_eq_true, decide_eq_true_eq]
    rintro ⟨⟨h1, h2⟩, h3⟩
    exact ⟨⟨by omega, h2⟩, h3⟩

/-- Below the canonical form's first address everything reads as unlisted. -/
theorem Memory.read_below {lo : Nat} (m : List Host.Cell) (x : Nat) (hx : x < lo)
    (h : Memory.wfFrom lo m = true) : Memory.read m x = unlistedByte := by
  cases m with
  | nil => rfl
  | cons c m =>
    obtain ⟨a, b⟩ := c
    simp only [Memory.wfFrom, Bool.and_eq_true, decide_eq_true_eq] at h
    simp only [Memory.read]
    rw [if_pos (by omega)]

/-- A write at or after the form's first address keeps the form. -/
theorem Memory.wfFrom_write (m : List Host.Cell) (lo x : Nat) (v : Byte) (hx : lo ≤ x)
    (h : Memory.wfFrom lo m = true) : Memory.wfFrom lo (Memory.write m x v) = true := by
  induction m generalizing lo with
  | nil =>
    simp only [Memory.write]
    split
    · rfl
    · rename_i hv
      simp [Memory.wfFrom, hx, hv]
  | cons c m ih =>
    obtain ⟨a, b⟩ := c
    have h' := h
    simp only [Memory.wfFrom, Bool.and_eq_true, decide_eq_true_eq] at h'
    obtain ⟨⟨h1, h2⟩, h3⟩ := h'
    simp only [Memory.write]
    split
    · rename_i hlt
      split
      · exact h
      · rename_i hv
        simp only [Memory.wfFrom, Bool.and_eq_true, decide_eq_true_eq]
        exact ⟨⟨hx, hv⟩, ⟨by omega, h2⟩, h3⟩
    · split
      · rename_i hlt heq
        split
        · exact Memory.wfFrom_mono (by omega) m h3
        · rename_i hv
          simp only [Memory.wfFrom, Bool.and_eq_true, decide_eq_true_eq]
          subst heq
          exact ⟨⟨hx, hv⟩, h3⟩
      · rename_i hlt hne
        simp only [Memory.wfFrom, Bool.and_eq_true, decide_eq_true_eq]
        exact ⟨⟨h1, h2⟩, ih (a + 1) (by omega) h3⟩

/-- Every write keeps the canonical form. -/
theorem Memory.wf_write (m : List Host.Cell) (x : Nat) (v : Byte) (h : Memory.wf m = true) :
    Memory.wf (Memory.write m x v) = true :=
  Memory.wfFrom_write m 0 x v (Nat.zero_le x) h

/-- Writing bytes keeps the canonical form. -/
theorem Memory.wf_writeBytes (m : List Host.Cell) (a : Nat) (bs : List Byte)
    (h : Memory.wf m = true) : Memory.wf (Memory.writeBytes m a bs) = true := by
  induction bs generalizing m a with
  | nil => exact h
  | cons b bs ih => exact ih _ _ (Memory.wf_write m a b h)

/-- A byte just written reads as written; every other byte reads as before. -/
theorem Memory.read_writeFrom (m : List Host.Cell) (lo x y : Nat) (v : Byte)
    (h : Memory.wfFrom lo m = true) :
    Memory.read (Memory.write m x v) y = if y = x then v else Memory.read m y := by
  induction m generalizing lo with
  | nil =>
    simp only [Memory.write]
    split
    · rename_i hv
      split <;> simp_all [Memory.read]
    · simp only [Memory.read]
      split <;> rename_i h1 <;> split <;> first | rfl | omega
  | cons c m ih =>
    obtain ⟨a, b⟩ := c
    simp only [Memory.wfFrom, Bool.and_eq_true, decide_eq_true_eq] at h
    obtain ⟨⟨h1, h2⟩, h3⟩ := h
    simp only [Memory.write]
    split
    · rename_i hlt
      split
      · rename_i hv
        by_cases hy : y = x
        · subst hy; simp [Memory.read, hlt, hv]
        · simp [hy]
      · rename_i hv
        by_cases hy : y = x
        · subst hy; simp [Memory.read]
        · rw [if_neg hy]
          by_cases hyx : y < x
          · have : y < a := by omega
            simp [Memory.read, hyx, this]
          · simp [Memory.read, hyx, hy]
    · split
      · rename_i hlt heq
        subst heq
        split
        · rename_i hv
          by_cases hy : y = x
          · subst hy
            rw [if_pos rfl, Memory.read_below m y (Nat.lt_succ_self y) h3, hv]
          · rw [if_neg hy]
            by_cases hyx : y < x
            · rw [Memory.read_below m y (by omega) h3]; simp [Memory.read, hyx]
            · simp [Memory.read, hyx, hy]
        · by_cases hy : y = x
          · subst hy; simp [Memory.read]
          · rw [if_neg hy]; simp [Memory.read, hy]
      · rename_i hlt hne
        simp only [Memory.read]
        by_cases hya : y < a
        · have : y ≠ x := by omega
          simp [hya, this]
        · by_cases hye : y = a
          · have : y ≠ x := by omega
            subst hye
            simp [this]
          · simp only [hya, hye, if_false]
            exact ih (a + 1) h3

/-- A byte just written reads as written; every other byte reads as before. -/
theorem Memory.read_write (m : List Host.Cell) (x y : Nat) (v : Byte) (h : Memory.wf m = true) :
    Memory.read (Memory.write m x v) y = if y = x then v else Memory.read m y :=
  Memory.read_writeFrom m 0 x y v h

/-- Outside the bytes written every byte reads as before. -/
theorem Memory.read_writeBytes_outside (m : List Host.Cell) (a y : Nat) (bs : List Byte)
    (h : Memory.wf m = true) (hy : y < a ∨ a + bs.length ≤ y) :
    Memory.read (Memory.writeBytes m a bs) y = Memory.read m y := by
  induction bs generalizing m a with
  | nil => rfl
  | cons b bs ih =>
    simp only [List.length_cons] at hy
    simp only [Memory.writeBytes]
    rw [ih _ _ (Memory.wf_write m a b h) (by omega), Memory.read_write m a y b h, if_neg (by omega)]

/-- The bytes written read as written. -/
theorem Memory.read_writeBytes_inside (m : List Host.Cell) (a i : Nat) (bs : List Byte)
    (h : Memory.wf m = true) (hi : i < bs.length) :
    Memory.read (Memory.writeBytes m a bs) (a + i) = bs[i] := by
  induction bs generalizing m a i with
  | nil => simp at hi
  | cons b bs ih =>
    simp only [Memory.writeBytes]
    cases i with
    | zero =>
      rw [Memory.read_writeBytes_outside _ (a + 1) (a + 0) bs (Memory.wf_write m a b h)
        (Or.inl (by omega)), Memory.read_write m a _ b h]
      simp
    | succ i =>
      have := ih (Memory.write m a b) (a + 1) i (Memory.wf_write m a b h) (by simpa using hi)
      rw [show a + (i + 1) = a + 1 + i by omega, this]
      simp

/-- Reading back what was written. -/
theorem Memory.readBytes_writeBytes (m : List Host.Cell) (a : Nat) (bs : List Byte)
    (h : Memory.wf m = true) : Memory.readBytes (Memory.writeBytes m a bs) a bs.length = bs := by
  have key : ∀ (n k : Nat), k + n = bs.length →
      Memory.readBytes (Memory.writeBytes m a bs) (a + k) n = bs.drop k := by
    intro n
    induction n with
    | zero =>
      intro k hk
      simp [Memory.readBytes, show k = bs.length by omega]
    | succ n ih =>
      intro k hk
      have hlt : k < bs.length := by omega
      rw [Memory.readBytes, Memory.read_writeBytes_inside m a k bs h hlt,
        show a + k + 1 = a + (k + 1) by omega, ih (k + 1) (by omega),
        List.drop_eq_getElem_cons hlt]
  simpa using key bs.length 0 (by omega)

end Sys2Proof.Machine
end

