-- ==== Sys2Proof/Laws/PerInstr.lean ====
section
/-! SUPPORT. The families of statements made for every command, one lemma per constructor. -/

/-- No word of the opcode table spells the command: no row of the table gives bits. -/
def Sys2Proof.Laws.Unspelled.Statement (i : Sys2Proof.Instr) : Prop :=
  ∀ nbits w : Nat, Sys2Proof.decodeTableWord nbits w ≠ some i

namespace Sys2Proof.Laws.Unspelled

theorem resetAsserted :
    Statement .resetAsserted := by
  intro n w h; exact absurd h (by simp [decodeTableWord])

theorem resetReleased (ids : BitVec 4) (scs : BitVec 3) (szs : BitVec 2) :
    Statement (.resetReleased ids scs szs) := by
  intro n w h; exact absurd h (by simp [decodeTableWord])

theorem samplePeriodEnd (lines : List (BitVec 50)) :
    Statement (.samplePeriodEnd lines) := by
  intro n w h; exact absurd h (by simp [decodeTableWord])

theorem sliceBoundary (stopN : Bool) :
    Statement (.sliceBoundary stopN) := by
  intro n w h; exact absurd h (by simp [decodeTableWord])

theorem stepBoundary (stopN : Bool) :
    Statement (.stepBoundary stopN) := by
  intro n w h; exact absurd h (by simp [decodeTableWord])

theorem peerLost :
    Statement .peerLost := by
  intro n w h; exact absurd h (by simp [decodeTableWord])

theorem orphanTimeout :
    Statement .orphanTimeout := by
  intro n w h; exact absurd h (by simp [decodeTableWord])

theorem listenEnd (stopN : Bool) :
    Statement (.listenEnd stopN) := by
  intro n w h; exact absurd h (by simp [decodeTableWord])

theorem ownWindowStart :
    Statement .ownWindowStart := by
  intro n w h; exact absurd h (by simp [decodeTableWord])

theorem windowFrameSent :
    Statement .windowFrameSent := by
  intro n w h; exact absurd h (by simp [decodeTableWord])

theorem windowFrameAborted (read : List LineLevel) :
    Statement (.windowFrameAborted read) := by
  intro n w h; exact absurd h (by simp [decodeTableWord])

theorem recallWindowStart :
    Statement .recallWindowStart := by
  intro n w h; exact absurd h (by simp [decodeTableWord])

theorem recallFrameSent :
    Statement .recallFrameSent := by
  intro n w h; exact absurd h (by simp [decodeTableWord])

theorem recallFrameAborted (read : List LineLevel) :
    Statement (.recallFrameAborted read) := by
  intro n w h; exact absurd h (by simp [decodeTableWord])

theorem leadInFound (wait ago : Nat) :
    Statement (.leadInFound wait ago) := by
  intro n w h; exact absurd h (by simp [decodeTableWord])

theorem frameHeaderReceived (header : List Byte) :
    Statement (.frameHeaderReceived header) := by
  intro n w h; exact absurd h (by simp [decodeTableWord])

theorem frameCutBySilence :
    Statement .frameCutBySilence := by
  intro n w h; exact absurd h (by simp [decodeTableWord])

theorem frameReceived (frame : List Byte) :
    Statement (.frameReceived frame) := by
  intro n w h; exact absurd h (by simp [decodeTableWord])

theorem openItem (sender : StationId) (item : SpanItem) :
    Statement (.openItem sender item) := by
  intro n w h; exact absurd h (by simp [decodeTableWord])

theorem closeItem (sender : StationId) (item : SpanItem) :
    Statement (.closeItem sender item) := by
  intro n w h; exact absurd h (by simp [decodeTableWord])

theorem spanBeacon (sender : StationId) (entries : List SpanItem) :
    Statement (.spanBeacon sender entries) := by
  intro n w h; exact absurd h (by simp [decodeTableWord])

theorem charter (sender : StationId) (body : List Byte) :
    Statement (.charter sender body) := by
  intro n w h; exact absurd h (by simp [decodeTableWord])

theorem condition (sender : StationId) (code : Byte) :
    Statement (.condition sender code) := by
  intro n w h; exact absurd h (by simp [decodeTableWord])

theorem timeMark (sender : StationId) (slice : Slice) (day : Half) (ms : Word) :
    Statement (.timeMark sender slice day ms) := by
  intro n w h; exact absurd h (by simp [decodeTableWord])

theorem probe (sender : StationId) (target : Byte) (value : Half) :
    Statement (.probe sender target value) := by
  intro n w h; exact absurd h (by simp [decodeTableWord])

theorem stop (sender : StationId) (target : Byte) :
    Statement (.stop sender target) := by
  intro n w h; exact absurd h (by simp [decodeTableWord])

theorem start (sender : StationId) (target : Byte) :
    Statement (.start sender target) := by
  intro n w h; exact absurd h (by simp [decodeTableWord])

theorem archiveMark (sender : StationId) (pairs : List (Byte × Slice)) :
    Statement (.archiveMark sender pairs) := by
  intro n w h; exact absurd h (by simp [decodeTableWord])

theorem recallRequest (sender : StationId) (tag : Half) (holder source mask : Byte) (first last : Slice) :
    Statement (.recallRequest sender tag holder source mask first last) := by
  intro n w h; exact absurd h (by simp [decodeTableWord])

theorem stWaitRaised :
    Statement .stWaitRaised := by
  intro n w h; exact absurd h (by simp [decodeTableWord])

theorem stWaitReleased :
    Statement .stWaitReleased := by
  intro n w h; exact absurd h (by simp [decodeTableWord])

theorem pauseEnd :
    Statement .pauseEnd := by
  intro n w h; exact absurd h (by simp [decodeTableWord])

theorem refreshTick :
    Statement .refreshTick := by
  intro n w h; exact absurd h (by simp [decodeTableWord])

theorem refreshEnd :
    Statement .refreshEnd := by
  intro n w h; exact absurd h (by simp [decodeTableWord])

theorem slotWriteEnd :
    Statement .slotWriteEnd := by
  intro n w h; exact absurd h (by simp [decodeTableWord])

theorem slotReadEnd (damage : List (Fin 512 × Byte)) :
    Statement (.slotReadEnd damage) := by
  intro n w h; exact absurd h (by simp [decodeTableWord])

end Sys2Proof.Laws.Unspelled
end

