-- ==== Sys2Proof/Tests/Slice0.lean ====
section
/-! SUPPORT. Tests: the ill-formed term each check refuses, the check computations and the worked numbers
of the spec, one small step of each command, and for each statement with premises a state that meets
them. -/

namespace Sys2Proof.Tests

open Sys2Proof Sys2Proof.Machine

set_option Elab.async false

/-! ### Small states -/

/-- The machine after reset, in a station state. -/
def inMode (m : Mode) : State :=
  { State.reset with control := { State.reset.control with mode := some m } }

/-- A present peer of a kind. -/
def peer (k : PeerKind) : RosterEntry :=
  { RosterEntry.reset with
    state := .present, kind := some k, activity := if k = .capture then some .run else none }

/-- The state with peer 3 as the entry says. -/
def withPeer (e : RosterEntry) (s : State) : State :=
  { s with roster := { s.roster with entries := put s.roster.entries 3 e } }

/-- The state in a mode with peer 3 a console. -/
def console (m : Mode) : State := withPeer (peer .console) (inMode m)

/-- The state with a span table. -/
def withTable (t : List SpanEntry) (s : State) : State := { s with spans := { s.spans with table := t } }

/-- The state with a store in a phase, at a debt, with an operation in progress. -/
def withStore (p : StorePhase) (debt : Nat) (op : Option StoreOp) (s : State) : State :=
  { s with store := { s.store with phase := p, debt := debt, op := op } }

/-- The state with a transmission in flight. -/
def withFlight (f : Flight) (s : State) : State := { s with link := { s.link with flight := some f } }

/-- The state with the receiver in a state. -/
def withRx (r : RxState) (s : State) : State := { s with link := { s.link with rx := r } }

/-- The next state, when there is one. -/
def nextOf (o : Host.Outcome State Fault Refusal) : Option State :=
  match o with
  | .next t => some t
  | _ => none

/-- The fault, when there is one. -/
def faultOf (o : Host.Outcome State Fault Refusal) : Option Fault :=
  match o with
  | .fault f => some f
  | _ => none

/-- An item of station 3, lane 2, opened in slice 10. -/
def openItem3 : SpanItem :=
  { key := { owner := 3, lane := 2, openSlice := 10 }, role := .witness, condition := .onRecord
    concurrency := 1, continued := false, time := none, form := .opened none }

/-- The same span closed at slice 20. -/
def closeItem3 : SpanItem := { openItem3 with form := .closed 20 .silence }

/-- Its entry in the table, in a status. -/
def entry3 (st : SpanStatus) : SpanEntry :=
  { key := openItem3.key, role := .witness, status := st, condition := .onRecord, link := none
    concurrency := 1, continued := false, announcedBy := 3, time := none }

/-- A block of 160 equal samples. -/
def block (t : Slice) (l : Lane) (x : Half) : Block :=
  { lane := l, slice := t, samples := List.replicate 160 x, missing := 0, level := 3, gap := false
    dead := false, stepped := false, unlocked := false, condition := .onRecord }

/-- A page of one block in lane 0. -/
def page (t : Slice) (o : PageOutcome) : OwnPage :=
  { slice := t, stepped := false, outcome := o, slots := some (block t 0 5) :: List.replicate 7 none }

/-- A charter body: the header's 16 bytes and 128 seats OTHER, detect on, no link. -/
def charterBody (head : List Byte) : List Byte :=
  head ++ (List.replicate 128 [0x87#8, 0xFF#8]).flatten

/-- The defaults under serial 7. -/
def goodHead : List Byte := [7, 0, 0, 0, 0xFF, 4, 25, 0, 100, 0, 9, 8, 3, 0, 80, 0]

/-! ### Well-formedness: a term each check refuses -/

theorem test_wf_samplePeriodEnd : (Instr.samplePeriodEnd []).wf = false := by decide
theorem test_wf_windowFrameAborted :
    (Instr.windowFrameAborted (List.replicate (16 * 3568 + 1) .up)).wf = false := by
  rw [Instr.wf, List.length_replicate]
  decide
theorem test_wf_recallFrameAborted :
    (Instr.recallFrameAborted (List.replicate (16 * 19968 + 1) .up)).wf = false := by
  rw [Instr.wf, List.length_replicate]
  decide
theorem test_wf_leadInFound :
    ((Instr.leadInFound 1501 24).wf, (Instr.leadInFound 0 23).wf, (Instr.leadInFound 0 72).wf,
      (Instr.leadInFound 1500 24).wf) = (false, false, false, true) := by decide
theorem test_wf_frameHeaderReceived :
    (Instr.frameHeaderReceived (zeros 15)).wf = false := by decide
theorem test_wf_frameReceived : (Instr.frameReceived (zeros 19)).wf = false := by decide
theorem test_wf_openItem_concurrency :
    (Instr.openItem 3 { openItem3 with concurrency := 128 }).wf = false := by decide
theorem test_wf_openItem_time :
    (Instr.openItem 3 { openItem3 with time := some { day := 0, ms := 86400000 } }).wf = false := by
  decide
theorem test_wf_openItem_form : (Instr.openItem 3 closeItem3).wf = false := by decide
theorem test_wf_closeItem_form : (Instr.closeItem 3 openItem3).wf = false := by decide
theorem test_wf_spanBeacon : (Instr.spanBeacon 3 [openItem3, closeItem3]).wf = false := by decide
theorem test_wf_charter : (Instr.charter 3 (zeros 271)).wf = false := by decide +kernel
theorem test_wf_archiveMark_none : (Instr.archiveMark 3 []).wf = false := by decide
theorem test_wf_archiveMark_many :
    (Instr.archiveMark 3 (List.replicate 17 (0, 0))).wf = false := by decide
theorem test_wf_accepts :
    (Instr.openItem 3 openItem3).wf = true ∧ (Instr.closeItem 3 closeItem3).wf = true ∧
      (Instr.charter 3 (charterBody goodHead)).wf = true := by decide +kernel

/-! ### Check computations and worked numbers -/

theorem test_crc32_digits :
    crc32 [0x31, 0x32, 0x33, 0x34, 0x35, 0x36, 0x37, 0x38, 0x39] = 0xCBF43926#32 := by decide +kernel
theorem test_crc16_digits :
    crc16 [0x31, 0x32, 0x33, 0x34, 0x35, 0x36, 0x37, 0x38, 0x39] = 0x29B1#16 := by decide +kernel
theorem test_levels : [0, 1, 255, 256, 32767, 32768].map level = [0, 1, 8, 9, 15, 16] := by decide
theorem test_sliceLengths : [-40, 0, 40].map sliceLength = [239960, 240000, 240040] := by decide
theorem test_slices_wrap : before 4294967295 0 = true ∧ before 0 4294967295 = false := by decide
theorem test_partition : ownCapacity 0 4 = 32768 ∧ mirrorCapacity 0 4 = 32768 := by decide
theorem test_charter_defaults : readCharter (charterBody goodHead) =
    .ok { Charter.defaults with serial := 7 } := by decide +kernel
theorem test_charter_firstBadField :
    readCharter (charterBody [0, 0, 0, 0, 16, 5, 0, 0, 0, 0, 0, 0, 0, 0, 0, 0]) = .error 1 ∧
    readCharter (charterBody [7, 0, 0, 0, 3, 5, 25, 0, 100, 0, 9, 8, 3, 0, 80, 0]) = .error 2 ∧
    readCharter (charterBody [7, 0, 0, 0, 3, 4, 25, 0, 100, 0, 9, 10, 3, 0, 80, 0]) = .error 6 := by
  decide +kernel
theorem test_noTableWord : decodeTableWord 8 0 = none := rfl

/-! ### Steps, reset, clock and seats: a state that meets each premise, and what the command does there -/

theorem test_StepRunsFrontCommand :
    nextOf (step { State.reset with pending := [.stWaitRaised, .pauseEnd] }) =
      some { State.reset with pending := [.pauseEnd], stWait := true } := by decide +kernel

theorem test_emptyQueue_counts :
    nextOf (step State.reset) = some { State.reset with
      clock := { State.reset.clock with divider := 1 }
      store := { State.reset.store with pauseTime := 1 } } := by decide +kernel

theorem test_emptyQueue_low :
    nextOf (step { State.reset with resetN := false }) = some { State.reset with resetN := false } := by
  decide +kernel

theorem test_resetReleased :
    (∃ s : State, s.resetN = false ∧ s.stopN = true ∧ s.stWait = false ∧ s.freeUses = 0 ∧
      s.pending = [] ∧ nextOf (exec .resetAsserted (inMode .run)) = some s ∧
      nextOf (exec (.resetReleased 0 0 0) s) = some State.reset) ∧
    nextOf (exec (.resetReleased 5 3 1) State.reset) = some State.reset := by
  refine ⟨⟨(nextOf (exec .resetAsserted (inMode .run))).getD State.reset, ?_⟩, ?_⟩ <;> decide +kernel

theorem test_heldLow :
    nextOf (exec (.sliceBoundary true) { State.reset with resetN := false }) =
      some { State.reset with resetN := false } := by decide +kernel

/-- An accumulator of samples of 1. -/
def ones (n : Nat) : Accumulator := { samples := List.replicate n 1, missing := 0, largest := 1 }

/-- A captured slice with a lane count of 2: lane 0 at 159 samples, lane 1 at 160. -/
def capturing : State :=
  { inMode .run with
    seat := { SeatCapture.reset 2 with
      capturing := true
      accs := put (put (SeatCapture.reset 2).accs 0 (ones 159)) 1 (ones 160) } }

/-- A data line's fifty bit periods: the valid flag as given, the sample's sign bit alone set. -/
def line (valid : Bool) : BitVec 50 := BitVec.ofNat 50 (4 + if valid then 2 else 0)

theorem test_readLine :
    readLine (line true) = { valid := true, sample := 0x8000 } ∧
    readLine (BitVec.twoPow 50 17 ||| BitVec.twoPow 50 1) = { valid := true, sample := 1 } ∧
    (readLine (line false)).valid = false ∧ answerOf [] 3 = { valid := false, sample := 0 } := by
  decide +kernel

theorem test_samplePeriod_capturing :
    capturing.seat.capturing = true ∧ (look capturing.seat.accs 0).samples.length = 159 ∧
    160 ≤ (look capturing.seat.accs 1).samples.length ∧ capturing.seat.laneCount ≤ (2 : Lane).val ∧
    (List.replicate 8 (line true))[(0 : Lane).val]? = some (line true) ∧
    (nextOf (exec (.samplePeriodEnd (List.replicate 8 (line true))) capturing)).map (fun t => ((look t.seat.accs 0).samples.length, (look t.seat.accs 0).largest,
        (look t.seat.accs 1).largest, t.clock.samplePos)) = some (160, 32768, 1, 1) := by
  decide +kernel

theorem test_samplePeriod_idle :
    nextOf (exec (.samplePeriodEnd []) State.reset) = some { State.reset with
      clock := { State.reset.clock with samplePos := 1, elapsed := 1500 } } := by decide +kernel

/-- At the last count of the last, lengthened sample period of a slice of applied trim 1. -/
def lastCount : State :=
  { State.reset with clock := { Clock.reset with divider := 1500, applied := 1 } }

theorem test_samplePeriod_position :
    lastCount.clock.divider + 1 = periodLength lastCount.clock.applied lastCount.clock.samplePos ∧
    (nextOf (exec (.samplePeriodEnd []) lastCount)).map (fun t => t.clock.position) = some 1501 ∧
    lastCount.spFck = false ∧ State.reset.spFck = true := by decide +kernel

theorem test_bitPeriodLengths :
    [0, 48, 49].map lastCount.clock.bitPeriodLength = [30, 30, 31] ∧
    ({ lastCount.clock with applied := -1 } : Clock).bitPeriodLength 49 = 29 ∧
    lastCount.resetN = true := by decide

theorem test_block_missing :
    (completeBlock { samples := List.replicate 120 255, missing := 0, largest := 255 } 0 7 false true
      .recess).missing = 40 ∧
    (completeBlock Accumulator.cleared 0 7 true true .recess).dead = true := by decide +kernel

/-- A block that is dead or not. -/
def deadOrNot (d : Bool) : Block := { block 9 0 0 with dead := d }

theorem test_laneFault_clauses :
    let f := LaneFault.reset
    let g := { f with faulted := true }
    (({ f with deadRun := 8 } : LaneFault).update (deadOrNot true)).2.1 = .none ∧
    (({ f with deadRun := 9 } : LaneFault).update (deadOrNot true)).2.1 = .enteredFault ∧
    (({ f with deadRun := 9, deadStart := some 0 } : LaneFault).update (deadOrNot true)).2.2.1 = 0 ∧
    (f.update (deadOrNot true)).1.deadStart = some 9 ∧
    (({ f with deadRun := 9 } : LaneFault).update (deadOrNot false)).1 = f ∧
    (({ g with liveRun := 99 } : LaneFault).update (deadOrNot true)).1.liveRun = 0 ∧
    (({ g with liveRun := 98 } : LaneFault).update (deadOrNot false)).2.1 = .none ∧
    (({ g with liveRun := 99, length := 65535 } : LaneFault).update (deadOrNot false)).2 =
      (.restored, 0, 65535) := by decide

theorem test_sliceBoundary :
    State.reset.resetN = true ∧ State.reset.clock.plan = none ∧
    (nextOf (exec (.sliceBoundary false) State.reset)).map (fun t =>
      (t.clock.index, t.stopN, t.clock.lastIndex, t.clock.lastLen)) =
        some (1, false, some 0, 240000) := by decide +kernel

/-- What the ordinary boundary of a state raises. -/
def boundaryRaises (stopN : Bool) (s : State) : List Notice :=
  (s.boundary stopN s.ordinary (sliceLength s.clock.applied)).raised.map Raised.notice

/-- A step planned to slice 500. -/
def planned (d : Discipline) (m : Mode) : State :=
  { inMode m with
    clock := { Clock.reset with discipline := d, plan := some { count := 100, index := 500 } } }

theorem test_stepBoundary :
    (planned .realign .run).clock.plan ≠ none ∧
    (planned .realign .run).roster.reference ≠ some 0 ∧
    (nextOf (exec (.stepBoundary true) (planned .realign .run))).map (fun t =>
      (t.clock.index, t.clock.discipline)) = some (500, .selfRef) ∧
    (nextOf (exec (.stepBoundary true) (planned .free .start))).map (fun t =>
      (t.clock.discipline, t.clock.aligned, t.notices.entries)) = some (.free, true, []) ∧
    (nextOf (exec (.stepBoundary true) (planned .free .listen))).map (fun t =>
      (t.clock.discipline, t.clock.aligned, t.control.listen)) = some (.free, true, 1) ∧
    nextOf (exec (.sliceBoundary true) (planned .realign .run)) = some (planned .realign .run) ∧
    nextOf (exec (.stepBoundary true) State.reset) = some State.reset := by decide +kernel

/-- LISTEN at its last boundary, with a join alignment planned. -/
def listenEnding : State :=
  let s := planned .free .listen
  { s with control := { s.control with listen := 299 } }

theorem test_stepBoundary_listenEnds :
    (nextOf (exec (.stepBoundary true) listenEnding)).map (fun t =>
      (t.control.mode, t.clock.discipline, t.clock.aligned)) =
        some (some .run, .selfRef, false) := by decide +kernel

theorem test_capturedSlice :
    capturing.seat.capturing = true ∧ capturing.store.capture = [] ∧ capturing.clock.plan = none ∧
    (nextOf (exec (.sliceBoundary true) capturing)).map (fun t =>
      (t.store.capture.length, t.awaitingPage.isSome)) = some (1, true) := by decide +kernel

/-- One present lane whose captured slice has a largest magnitude, its detector as given, and with it
the entry of its open span. -/
def heard (largest : Nat) (d : Detector) : State :=
  let s := withTable [{ entry3 .opened with key := { owner := 0, lane := 0, openSlice := 0 } }]
    (inMode .run)
  { s with
    seat := { SeatCapture.reset 1 with
      capturing := true
      accs := put (SeatCapture.reset 1).accs 0 { ones 160 with largest := largest } }
    spans := { s.spans with detectors := put s.spans.detectors 0 d } }

/-- The detector, the number of entries and the outbox's forms after the boundary. -/
def spoken (stopN : Bool) (s : State) : Option (Detector × List SpanStatus × List ItemForm) :=
  (nextOf (exec (.sliceBoundary stopN) s)).map fun t =>
    (look t.spans.detectors 0, t.spans.table.map SpanEntry.status, t.spans.outbox.map SpanItem.form)

/-- The key of its span. -/
def key0 : SpanKey := { owner := 0, lane := 0, openSlice := 0 }

theorem test_detector_clauses :
    (heard 256 .quiet).seat.laneCount = 1 ∧ (heard 256 .quiet).control.charter.tOpen = 9 ∧
    (heard 256 .quiet).spans.table.Pairwise (fun a b => a.key ≠ b.key) ∧
    [heard 255 .quiet, heard 256 .quiet, heard 255 (.onset 2 7), heard 256 (.onset 2 7),
      heard 128 (.active 9 key0), heard 127 (.active 9 key0), heard 127 (.hang 79 9 key0)].map
        (spoken true) =
      [some (.quiet, [.opened], []), some (.onset 1 0, [.opened], []), some (.quiet, [.opened], []),
        some (.active 0 { key0 with openSlice := 7 }, [.opened, .opened], [.opened none]),
        some (.active 0 key0, [.opened], []), some (.hang 1 9 key0, [.opened], []),
        some (.quiet, [.closed 9 .silence], [.closed 9 .silence])] := by decide +kernel

/-- A condition named by a console is pending. -/
def changing (s : State) : State :=
  { s with control := { s.control with pendingCondition := some .onRecord } }

theorem test_split_clauses :
    spoken false (heard 256 (.active 9 key0)) =
      some (.quiet, [.closed 0 .stopped], [.closed 0 .stopped]) ∧
    spoken false (heard 127 (.hang 5 9 key0)) =
      some (.quiet, [.closed 9 .stopped], [.closed 9 .stopped]) ∧
    spoken true (changing (heard 256 (.active 9 key0))) =
      some (.active 1 { key0 with openSlice := 1 }, [.closed 0 .condition, .opened],
        [.closed 0 .condition, .opened none]) := by decide +kernel

/-- The entry of a further key of its lane. -/
def also (t : Slice) (s : State) : State :=
  withTable (s.spans.table ++ [{ entry3 (.closed 3 .silence) with key := { key0 with openSlice := t } }]) s

theorem test_open_refused :
    spoken true (heard 256 (.onset 2 0)) = some (.quiet, [.opened], []) ∧
    spoken true (changing (also 1 (heard 256 (.active 9 key0)))) =
      some (.quiet, [.closed 0 .condition, .closed 3 .silence], [.closed 0 .condition]) := by
  decide +kernel

/-- The same after a step boundary that begins a slice. -/
def realigned (t : Slice) (s : State) : Option (Detector × List SpanStatus × List ItemForm) :=
  (nextOf (exec (.stepBoundary true) { s with
    clock := { s.clock with discipline := .realign, plan := some { count := 100, index := t } } })).map
      fun t => (look t.spans.detectors 0, t.spans.table.map SpanEntry.status,
        t.spans.outbox.map SpanItem.form)

theorem test_split_realigned :
    realigned 500 (heard 256 (.active 9 key0)) =
      some (.active 500 { key0 with openSlice := 500 }, [.closed 0 .realigned, .opened],
        [.closed 0 .realigned, .opened none]) ∧
    realigned 0 (heard 256 (.active 9 key0)) =
      some (.quiet, [.closed 0 .realigned], [.closed 0 .realigned]) ∧
    realigned 500 (heard 127 (.hang 5 9 key0)) =
      some (.quiet, [.closed 9 .realigned], [.closed 9 .realigned]) := by decide +kernel

/-- A captured slice with two pages staged, the write of the older begun or not. -/
def fullStaging (w : Option PageWrite) : State :=
  { capturing with
    roster := { capturing.roster with reference := some 0 }
    store := { capturing.store with
      capture := [page 1 .sent, page 2 .awaiting], captureWrite := w } }

/-- The slices and outcomes staged after the boundary, the drops and the notices. -/
def overflowed (w : Option PageWrite) : Option (List (Slice × PageOutcome) × Half × List Notice) :=
  (nextOf (exec (.sliceBoundary true) (fullStaging w))).map fun t =>
    (t.store.capture.map (fun p => (p.slice, p.outcome)), t.store.drops, t.notices.entries)

/-- The notice of a drop from capture staging. -/
def dropNotice (t : Half) : Notice := { kind := .stagingOverflow, slice := 1, subject := 0, detail := t }

theorem test_staging_overflow :
    (fullStaging none).seat.capturing = true ∧ (fullStaging none).clock.plan = none ∧
    overflowed none = some ([(2, .unsent), (0, .awaiting)], 1, [dropNotice 1]) ∧
    overflowed (some { place := 3, lane := 2 }) =
      some ([(1, .sent), (0, .awaiting)], 1, [dropNotice 2]) := by decide +kernel

/-- The lane's fault state before its last block. -/
def faulting (f : LaneFault) (s : State) : State :=
  { s with seat := { s.seat with faults := put s.seat.faults 0 f } }

/-- A slice in which nothing was valid. -/
def deadLane : State :=
  let s := heard 0 (.active 9 key0)
  { s with seat := { s.seat with accs := (SeatCapture.reset 1).accs } }

theorem test_detector_fault :
    spoken true (faulting { LaneFault.reset with deadRun := 9 } deadLane) =
      some (.faulted, [.closed 9 .laneFault], [.closed 9 .laneFault]) ∧
    spoken true (faulting { LaneFault.reset with faulted := true, liveRun := 99 } (heard 1 .faulted)) =
      some (.quiet, [.opened], []) := by decide +kernel

theorem test_laneFault_notices :
    (boundaryRaises true (faulting { LaneFault.reset with deadRun := 9, deadStart := some 4 }
      deadLane)).filter (fun n => n.kind = .laneFault) =
        [{ kind := .laneFault, slice := deadLane.clock.index + 1, subject := 0, detail := 4 }] ∧
    (boundaryRaises true (faulting { LaneFault.reset with faulted := true, liveRun := 99, length := 200 }
      (heard 1 .faulted))).filter (fun n => n.kind = .laneRestored) =
        [{ kind := .laneRestored, slice := deadLane.clock.index + 1, subject := 0, detail := 201 }] := by
  decide +kernel

/-- A pending charter of every seat's detect setting as given. -/
def pendingDetect (detect : Bool) (s : State) : State :=
  { s with control := { s.control with pendingCharter := some {
      charter := { Charter.defaults with
        mirrorShare := 0, seats := List.replicate 128 { role := .judge, detect := detect, link := none } }
      digest := 5, sender := 3 } } }

theorem test_pendingCharter :
    (nextOf (exec (.sliceBoundary true) (pendingDetect false (heard 1 .quiet)))).map (fun t =>
      (look t.spans.detectors 0, t.control.status, t.control.digest, t.control.pendingCharter.isNone,
        t.rings.own.pages.length)) = some (.disabled, .adopted, 5, true, 0) := by decide +kernel

theorem test_pendingCharter_notice :
    (boundaryRaises true (pendingDetect false (heard 1 .quiet))).filter (fun n => n.kind = .charterAdopted) =
      [{ kind := .charterAdopted, slice := (heard 1 .quiet).clock.index + 1, subject := 3, detail := 0 }] := by
  decide +kernel

theorem test_correction :
    [8, -8, 7, 1, -1, -7, 0, 42, -62].map correction = [1, -1, 1, 1, -1, -1, 0, 5, -7] ∧
    newTrim (-40) (-90) = -40 := by decide

/-- A lead-in in slice 4 at a count. -/
def leadInAt (n : Nat) : LeadIn := { slice := 4, count := n, boundaries := 0 }

theorem test_measure_clauses :
    Clock.reset.measure (leadInAt 43200) 15 = (-120000, 4) ∧
    Clock.reset.measure (leadInAt 121199) 0 = (119999, 4) ∧
    Clock.reset.measure (leadInAt 121200) 0 = (-120000, 5) ∧
    Clock.reset.measure (leadInAt 43199) 15 = (119999, 3) := by decide

/-- A clock in a state, with its runs. -/
def disciplined (d : Discipline) (good bad : Nat) : State :=
  { inMode .run with clock := { Clock.reset with discipline := d, goodRun := good, badRun := bad } }

theorem test_measurement_clauses :
    (Clock.reset.measure (leadInAt 1290) 0) = (90, 4) ∧
    ((disciplined .tracking 7 0).measureFrame (leadInAt 1224) 0 4).clock.discipline = .locked ∧
    ((disciplined .tracking 6 0).measureFrame (leadInAt 1224) 0 4).clock.goodRun = 7 ∧
    ((disciplined .tracking 7 0).measureFrame (leadInAt 1225) 0 4).clock.goodRun = 0 ∧
    ((disciplined .locked 0 3).measureFrame (leadInAt 1249) 0 4).clock.discipline = .tracking ∧
    ((disciplined .locked 0 2).measureFrame (leadInAt 1249) 0 4).clock.badRun = 3 ∧
    ((disciplined .locked 0 3).measureFrame (leadInAt 1248) 0 4).clock.badRun = 0 ∧
    ((disciplined .locked 0 3).measureFrame (leadInAt 1291) 0 4).clock.discipline = .realign ∧
    ((disciplined .locked 0 3).measureFrame (leadInAt 1200) 0 5).clock.discipline = .realign := by
  decide +kernel

theorem test_measurement_notices :
    (((disciplined .tracking 7 0).measureFrame (leadInAt 1224) 0 4).raised.map Raised.notice) =
      [{ kind := .locked, slice := 0, subject := 0, detail := 3 }] ∧
    (((disciplined .locked 0 3).measureFrame (leadInAt 1151) 0 4).raised.map Raised.notice) =
      [{ kind := .unlocked, slice := 0, subject := 0, detail := 65530 }] ∧
    ((disciplined .tracking 6 0).measureFrame (leadInAt 1224) 0 4).raised = [] ∧
    ((disciplined .locked 0 2).measureFrame (leadInAt 1249) 0 4).raised = [] := by decide +kernel

theorem test_timeOfDay :
    Clock.reset.timeOfDay 3 = none ∧
    ({ Clock.reset with mark := some { slice := 1500050, day := 19800, ms := 86399990 } }).timeOfDay
      1500051 = some { day := 19801, ms := 0 } := by decide

/-! ### Roster and spans -/

/-- Peer 3 silent for a number of slices. -/
def silent3 (n : Nat) : State := withPeer { peer .archive with silence := n } (inMode .run)

theorem test_peerLost :
    (look (silent3 26).roster.entries 3).state = .present ∧
    (silent3 26).control.charter.lossSlices < (look (silent3 26).roster.entries 3).silence ∧
    (nextOf (exec .peerLost (silent3 26))).map (fun t => (look t.roster.entries 3).state) =
      some .lost ∧
    (nextOf (exec .peerLost (silent3 25))).map (fun t => (look t.roster.entries 3).state) =
      some .present := by decide +kernel

/-- Peer 3, silent too long, with a span in the table; the mirror source as given, its run in the list. -/
def mirrorLost (m : Option StationId) : State :=
  let s := withTable [entry3 .opened] (silent3 26)
  { s with
    roster := { s.roster with mirror := m }
    rings := { s.rings with runs := [{ source := 3, first := 2, last := 15, isOpen := true }] } }

theorem test_peerLost_spans :
    (mirrorLost none).spans.table.Pairwise (fun a b => a.key ≠ b.key) ∧
    (nextOf (exec .peerLost (mirrorLost none))).map (fun t =>
      (t.spans.table.map SpanEntry.status, t.spans.custody, t.notices.entries.map Notice.kind)) =
        some ([.orphaned 0 10], [], [.peerLost, .referenceChanged]) ∧
    (nextOf (exec .peerLost (mirrorLost (some 3)))).map (fun t =>
      (t.spans.table.map SpanEntry.status, t.spans.custody.map (fun r => (r.peer, r.items.length)),
        t.spans.outbox.length)) = some ([.closed 15 .stationLost], [(3, 1)], 1) := by
  decide +kernel

/-- As `mirrorLost (some 3)`, LOCKED to peer 3. -/
def referenceLost : State :=
  let s := mirrorLost (some 3)
  { s with
    clock := { s.clock with discipline := .locked }
    roster := { s.roster with reference := some 3 } }

theorem test_peerLost_notices :
    referenceLost.losePeers.recompute.raised.map Raised.notice =
      [{ kind := .peerLost, slice := 0, subject := 3, detail := 0 },
        { kind := .custodyTaken, slice := 0, subject := 3, detail := 1 },
        { kind := .referenceChanged, slice := 0, subject := 0, detail := 3 },
        { kind := .unlocked, slice := 0, subject := 3, detail := 0 },
        { kind := .mirrorSourceChanged, slice := 0, subject := 255, detail := 3 }] := by
  decide +kernel

theorem test_boundary_ages :
    (nextOf (exec (.sliceBoundary true) (silent3 25))).map (fun t =>
      ((look t.roster.entries 3).state, (look t.roster.entries 3).silence)) = some (.lost, 26) ∧
    (nextOf (exec (.sliceBoundary true) (silent3 24))).map (fun t =>
      ((look t.roster.entries 3).state, (look t.roster.entries 3).silence)) = some (.present, 25) ∧
    (nextOf (exec (.sliceBoundary true) (withTable [entry3 (.orphaned 99 9), entry3 (.orphaned 98 30)]
      (inMode .run)))).map (fun t => t.spans.table.map SpanEntry.status) =
        some [.closed 10 .stationLost, .orphaned 99 30] := by decide +kernel

/-- This station is 5 and a capture peer 3 is present. -/
def five : State :=
  let s := withPeer (peer .capture) (inMode .run)
  { s with control := { s.control with id := 5 } }

/-- This station is 1 and a capture peer 3 is present. -/
def one : State := { five with control := { five.control with id := 1 } }

theorem test_selections :
    five.chooseReference = some 3 ∧ five.chooseMirror = some 3 ∧ one.chooseReference = some 1 ∧
    one.chooseMirror = some 3 ∧ State.reset.chooseReference = none ∧
    (inMode .run).chooseMirror = none ∧
    ({ five with control := { five.control with
      charter := { five.control.charter with mirrorShare := 0 } } }).chooseMirror = none := by
  decide +kernel

theorem test_orphanTimeout :
    nextOf (exec .orphanTimeout (withTable [entry3 (.orphaned 100 9), entry3 (.orphaned 99 30)]
      (inMode .run))) = some (withTable [{ entry3 (.closed 10 .stationLost) with announcedBy := 0 },
      entry3 (.orphaned 99 30)] (inMode .run)) := by decide +kernel

theorem test_openItem_inserted :
    (inMode .run).raised = [] ∧ openItem3.key.owner = 3 ∧
    nextOf (exec (.openItem 3 openItem3) (inMode .run)) = some (withTable [entry3 .opened] (inMode .run)) ∧
    (nextOf (exec (.openItem 3 { openItem3 with key := { openItem3.key with openSlice := 11 } })
      (withTable [entry3 .opened] (inMode .run)))).map (fun t =>
        t.spans.table.map SpanEntry.status) = some [.closed 10 .superseded, .opened] := by
  decide +kernel

/-- A full table: 159 entries closed at slice 50 and one at slice 40, of station 9. -/
def fullTable (marks : Vector (Option Slice) 16) : State :=
  let e (n : Nat) (u : Slice) : SpanEntry :=
    { entry3 (.closed u .silence) with key := { owner := 9, lane := 1, openSlice := BitVec.ofNat 32 n } }
  let s := withTable ((List.range 159).map (fun n => e n 50) ++ [e 159 40]) (inMode .run)
  { s with rings := { s.rings with marks := marks } }

theorem test_openItem_evicts :
    (fullTable (Vector.replicate 16 none)).spans.table.length = 160 ∧
    ((nextOf (exec (.openItem 3 openItem3) (fullTable (Vector.replicate 16 none)))).map (fun t =>
      (t.spans.table.length, (t.spans.table.getLastD (entry3 .opened)).status,
        t.notices.entries.map Notice.kind))) = some (160, .opened, [.spanEvicted]) ∧
    ((nextOf (exec (.openItem 3 openItem3) (fullTable (Vector.replicate 16 (some 45))))).map (fun t =>
      (t.spans.table.length, t.spans.table.any (fun e => e.status = .closed 40 .silence),
        t.notices.entries))) = some (160, false, []) := by decide +kernel

theorem test_openItem_ignored :
    nextOf (exec (.openItem 4 openItem3) (inMode .run)) = some (inMode .run) ∧
    nextOf (exec (.openItem 3 openItem3) (withTable [entry3 (.closed 20 .silence)] (inMode .run))) =
      some (withTable [entry3 (.closed 20 .silence)] (inMode .run)) ∧
    nextOf (exec (.openItem 3 { openItem3 with key := { openItem3.key with openSlice := 9 } })
      (withTable [entry3 .opened] (inMode .run))) =
      some (withTable [entry3 .opened] (inMode .run)) := by decide +kernel

theorem test_closeItem_clauses :
    nextOf (exec (.closeItem 3 closeItem3) (withTable [entry3 .opened] (inMode .run))) =
      some (withTable [entry3 (.closed 20 .silence)] (inMode .run)) ∧
    nextOf (exec (.closeItem 3 { openItem3 with form := .closed 9 .stopped })
      (withTable [entry3 (.orphaned 0 9)] (inMode .run))) =
      some (withTable [entry3 (.closed 10 .stopped)] (inMode .run)) ∧
    nextOf (exec (.closeItem 4 closeItem3) (withTable [entry3 (.closed 12 .silence)] (inMode .run))) =
      some (withTable [entry3 (.closed 12 .silence)] (inMode .run)) ∧
    nextOf (exec (.closeItem 3 closeItem3) (inMode .run)) =
      some (withTable [entry3 (.closed 20 .silence)] (inMode .run)) := by decide +kernel

/-- Station 3 itself, its lane 2's span open, the lane's detector as given. -/
def ownSpan (d : Detector) : State :=
  let s := withTable [entry3 .opened] (inMode .run)
  { s with
    control := { s.control with id := 3 }
    spans := { s.spans with detectors := put s.spans.detectors 2 d } }

theorem test_closeItem_own :
    (nextOf (exec (.closeItem 1 closeItem3) (ownSpan (.hang 4 15 openItem3.key)))).map (fun t =>
      look t.spans.detectors 2) = some .quiet ∧
    (nextOf (exec (.closeItem 1 closeItem3) (ownSpan (.active 15 openItem3.key)))).map (fun t =>
      (look t.spans.detectors 2, t.spans.table.length)) =
        some (.active 21 { openItem3.key with openSlice := 21 }, 2) := by decide +kernel

theorem test_closeItem_overflow :
    (let s := ownSpan (.active 15 openItem3.key)
     let t := { s with spans := { s.spans with outbox := List.replicate 64 openItem3 } }
     (nextOf (exec (.closeItem 1 closeItem3) t)).map (fun t =>
      (t.spans.outbox.length, t.spans.outboxDrops, t.notices.entries.map Notice.kind))) =
        some (64, 1, [.outboxOverflow]) := by decide +kernel

theorem test_spanBeacon :
    openItem3.isOpen = true ∧
    nextOf (exec (.spanBeacon 3 [openItem3]) (withTable [entry3 (.orphaned 5 9)] (inMode .run))) =
      some (withTable [entry3 .opened] (inMode .run)) ∧
    nextOf (exec (.spanBeacon 3 [openItem3]) (withTable [entry3 (.closed 20 .silence)] (inMode .run))) =
      some (withTable [entry3 (.closed 20 .silence)] (inMode .run)) := by decide +kernel

theorem test_spanBeacon_unknown :
    entryOf (inMode .run).spans.table openItem3.key = none ∧
    nextOf (exec (.spanBeacon 3 [openItem3]) (inMode .run)) =
      some (withTable [entry3 .opened] (inMode .run)) ∧
    (nextOf (exec (.spanBeacon 3 [{ openItem3 with key := { openItem3.key with openSlice := 11 } }])
      (withTable [entry3 .opened] (inMode .run)))).map (fun t =>
        t.spans.table.map SpanEntry.status) = some [.closed 10 .superseded, .opened] ∧
    (nextOf (exec (.spanBeacon 3 [openItem3, { openItem3 with key := { openItem3.key with lane := 1 } }])
      (withTable [entry3 (.orphaned 5 9)] (inMode .run)))).map (fun t =>
        t.spans.table.map SpanEntry.status) = some [.opened, .opened] := by decide +kernel

/-! ### Station controller -/

/-- LISTEN after a number of slices. -/
def listening (n : Nat) (c : CharterStatus) : State :=
  let s := inMode .listen
  { s with control := { s.control with listen := n, status := c } }

theorem test_listenEnd :
    (nextOf (exec (.listenEnd true) (listening 50 .adopted))).map (fun t => t.control.mode) =
      some (some .run) ∧
    (nextOf (exec (.listenEnd false) (listening 300 .unsettled))).map (fun t =>
      (t.control.mode, t.control.status)) = some (some .idle, .defaulted) ∧
    nextOf (exec (.listenEnd true) (listening 49 .adopted)) = some (listening 49 .adopted) ∧
    nextOf (exec (.listenEnd true) (listening 299 .unsettled)) = some (listening 299 .unsettled) ∧
    nextOf (exec (.listenEnd true) State.reset) = some State.reset := by decide +kernel

theorem test_listenEnd_planned :
    let s := { listenEnding with control := { listenEnding.control with listen := 300 } }
    s.clock.discipline = .free ∧ (nextOf (exec (.listenEnd true) s)).map (fun t =>
      (t.clock.discipline, t.clock.plan)) = some (.selfRef, s.clock.plan) := by decide +kernel

theorem test_listen_boundary :
    (nextOf (exec (.sliceBoundary true) (listening 49 .adopted))).map (fun t =>
      (t.control.mode, t.control.join, t.seat.capturing)) = some (some .run, some 1, true) ∧
    (nextOf (exec (.sliceBoundary false) (listening 299 .unsettled))).map (fun t =>
      (t.control.mode, t.control.status)) = some (some .idle, .defaulted) ∧
    (nextOf (exec (.sliceBoundary true) (listening 48 .adopted))).map (fun t =>
      (t.control.mode, t.control.listen)) = some (some .listen, 49) ∧
    (nextOf (exec (.sliceBoundary true) { State.reset with
      control := { State.reset.control with storeSeen := true } })).map (fun t =>
        (t.control.mode, t.control.listen)) = some (some .listen, 0) := by decide +kernel

theorem test_listen_notices :
    boundaryRaises false (listening 299 .unsettled) =
      [{ kind := .charterDefaulted, slice := 1, subject := 255, detail := 0 },
        { kind := .stateChanged, slice := 1, subject := 3, detail := 255 },
        { kind := .referenceChanged, slice := 1, subject := 0, detail := 255 }] ∧
    boundaryRaises true { State.reset with control := { State.reset.control with storeSeen := true } } =
      [{ kind := .stateChanged, slice := 1, subject := 1, detail := 255 }] ∧
    (listening 300 .unsettled).raised = [] ∧
    (listening 300 .unsettled).notices.entries.length ≤ 59 := by decide +kernel

theorem test_charter_fields :
    (∀ n, n < 128 → (byteAt (charterBody goodHead) (16 + 2 * n)).toNat = 135 ∧
      (byteAt (charterBody goodHead) (17 + 2 * n)).toNat = 255) ∧
    [4, 5, 6, 7, 8, 9, 10, 11, 12, 14, 15].map (fun i =>
      (byteAt (charterBody goodHead) i).toNat) = [255, 4, 25, 0, 100, 0, 9, 8, 3, 80, 0] ∧
    readCharter (goodHead ++ [0x87, 0xFF, 0x88, 0xFF] ++ (List.replicate 126 [0x87#8, 0xFF#8]).flatten) =
      .error 257 ∧
    [[7, 0, 0, 0, 3, 4, 9, 0, 100, 0, 9, 8, 3, 0, 80, 0], [7, 0, 0, 0, 3, 4, 25, 0, 49, 0, 9, 8, 3, 0, 80, 0],
      [7, 0, 0, 0, 3, 4, 25, 0, 100, 0, 17, 8, 3, 0, 80, 0], [7, 0, 0, 0, 3, 4, 25, 0, 100, 0, 9, 8, 17, 0, 80, 0],
      [7, 0, 0, 0, 3, 4, 25, 0, 100, 0, 9, 8, 3, 0, 9, 0]].map (fun h => readCharter (charterBody h)) =
        [.error 3, .error 4, .error 5, .error 7, .error 8] := by decide +kernel

theorem test_charter_rejected :
    (charterBody (zeros 16)).length = 272 ∧ (console .run).raised = [] ∧
    (look (console .run).roster.entries 3).kind = some .console ∧ (console .run).active = true ∧
    (nextOf (exec (.charter 3 (charterBody (zeros 16))) (console .run))).map (fun t =>
      t.notices.entries.map Notice.detail) = some [3] := by decide +kernel

theorem test_charter_adopted :
    (nextOf (exec (.charter 3 (charterBody goodHead)) (console .listen))).map (fun t =>
      (t.control.status, t.control.charter.serial, decide (t.rings = (console .listen).rings))) =
        some (.adopted, 7, true) ∧
    (nextOf (exec (.charter 3 (charterBody [7, 0, 0, 0, 0xFF, 0, 25, 0, 100, 0, 9, 8, 3, 0, 80, 0]))
      (console .listen))).map (fun t => t.control.charter.mirrorShare) = some 0 := by decide +kernel

/-- A console's room with a charter status and digest. -/
def settled (m : Mode) (c : CharterStatus) (d : Word) : State :=
  let s := console m
  { s with control := { s.control with status := c, digest := d } }

theorem test_charter_later :
    (nextOf (exec (.charter 3 (charterBody goodHead)) (settled .run .defaulted 0))).map (fun t =>
      t.control.pendingCharter.isSome) = some true := by decide +kernel

theorem test_charter_same_or_other (b : List Byte) :
    crc32 b = (settled .run .adopted (crc32 b)).control.digest ∧
    crc32 b ≠ (settled .run .adopted (crc32 b + 1)).control.digest ∧
    (settled .run .adopted (crc32 b)).active = true := by
  refine ⟨rfl, ?_, rfl⟩
  show crc32 b ≠ crc32 b + 1
  simp

/-- On defaults with a charter pending, its digest as given. -/
def onePending (d : Word) : State :=
  let s := settled .run .defaulted 0
  { s with control := { s.control with
      pendingCharter := some { charter := Charter.defaults, digest := d, sender := 3 } } }

theorem test_charter_onePending (b : List Byte) :
    (onePending 0).active = true ∧ (onePending 0).control.status = .defaulted ∧
    (onePending 0).raised = [] ∧
    (∃ p, (onePending (crc32 b)).control.pendingCharter = some p ∧ p.digest = crc32 b) ∧
    (∃ p, (onePending (crc32 b + 1)).control.pendingCharter = some p ∧ p.digest ≠ crc32 b) :=
  ⟨rfl, rfl, rfl, ⟨_, rfl, rfl⟩, ⟨_, rfl, by simp⟩⟩

theorem test_condition :
    (nextOf (exec (.condition 3 2) (console .idle))).map (fun t => t.control.pendingCondition) =
      some (some .offRecord) ∧
    nextOf (exec (.condition 3 4) (console .run)) = some (console .run) := by decide +kernel

theorem test_condition_boundary :
    (changing (inMode .idle)).active = true ∧
    (nextOf (exec (.sliceBoundary true) (changing (inMode .idle)))).map (fun t =>
      (t.control.condition, t.control.pendingCondition)) = some (.onRecord, none) := by decide +kernel

theorem test_timeMark :
    (nextOf (exec (.timeMark 3 5 6 86399999) (console .listen))).map (fun t => t.clock.mark) =
      some (some { slice := 5, day := 6, ms := 86399999 }) ∧
    nextOf (exec (.timeMark 3 5 6 86400000) (console .run)) = some (console .run) := by decide +kernel

/-- The notice queue full. -/
def fullQueue (s : State) : State :=
  let n : Notice := { kind := .test, slice := 0, subject := 0, detail := 0 }
  { s with notices := { s.notices with entries := List.replicate 64 n } }

theorem test_probe :
    (nextOf (exec (.probe 3 255 77) (console .run))).map (fun t => t.notices.entries) =
      some [{ kind := .test, slice := 0, subject := 3, detail := 77 }] ∧
    64 ≤ (fullQueue (console .run)).notices.entries.length ∧
    (nextOf (exec (.probe 3 0 77) (fullQueue (console .run)))).map (fun t => t.notices.dropped) =
      some 1 := by decide +kernel

theorem test_stop :
    (nextOf (exec (.stop 3 0) (console .run))).map (fun t => t.control.pendingStop) =
      some (some 3) ∧
    nextOf (exec (.stop 3 255) (console .idle)) = some (console .idle) ∧
    (let s := { console .run with control := { (console .run).control with pendingStop := some 4 } }
     nextOf (exec (.stop 3 255) s) = some s) := by decide +kernel

theorem test_start :
    (nextOf (exec (.start 3 255) (console .idle))).map (fun t => t.control.pendingStart) =
      some (some 3) ∧
    nextOf (exec (.start 3 0) (console .run)) = some (console .run) := by decide +kernel

theorem test_stopStart_boundary :
    (let s := console .run
     (nextOf (exec (.sliceBoundary true) { s with control := { s.control with pendingStop := some 3 } })).map
      (fun t => (t.control.mode, t.control.pendingStop))) = some (some .idle, none) ∧
    (let s := console .idle
     (nextOf (exec (.sliceBoundary true) { s with control := { s.control with pendingStart := some 3 } })).map
      (fun t => (t.control.mode, t.seat.capturing))) = some (some .run, true) ∧
    (nextOf (exec (.sliceBoundary true) (console .idle))).map (fun t => t.control.mode) =
      some (some .idle) ∧
    (nextOf (exec (.sliceBoundary false) (console .run))).map (fun t => t.control.mode) =
      some (some .idle) := by decide +kernel

theorem test_stopStart_notices :
    (let s := console .run
     boundaryRaises true { s with control := { s.control with pendingStop := some 3 } }).head? =
      some { kind := .stateChanged, slice := 1, subject := 3, detail := 3 } ∧
    (boundaryRaises false (console .run)).head? =
      some { kind := .stateChanged, slice := 1, subject := 3, detail := 255 } ∧
    (let s := console .idle
     boundaryRaises true { s with control := { s.control with pendingStart := some 3 } }).head? =
      some { kind := .stateChanged, slice := 1, subject := 2, detail := 3 } := by decide +kernel

theorem test_passedOver :
    ((inMode .run).entry 3).kind ≠ some .console ∧
    nextOf (exec (.probe 3 255 0) (inMode .run)) = some (inMode .run) ∧
    nextOf (exec (.probe 3 1 0) (console .run)) = some (console .run) ∧
    nextOf (exec (.timeMark 3 0 0 0) (console .start)) = some (console .start) ∧
    nextOf (exec (.stop 3 255) (console .listen)) = some (console .listen) ∧
    nextOf (exec (.archiveMark 3 [(0, 5)]) (console .run)) = some (console .run) ∧
    nextOf (exec (.recallRequest 3 9 0 0 6 4 6) (console .listen)) = some (console .listen) := by
  decide +kernel

/-! ### Rings and store -/

/-- Peer 3 is the archive of record, and holds mark 5 for station 2. -/
def archived : State :=
  let s := inMode .run
  { s with
    control := { s.control with charter := { s.control.charter with archive := some 3 } }
    rings := { s.rings with marks := put s.rings.marks 2 (some 5) } }

theorem test_archiveMark :
    archived.control.charter.archive = some 3 ∧ archived.active = true ∧
    (nextOf (exec (.archiveMark 3 [(15, 5)]) archived)).map (fun t => look t.rings.marks 15) =
      some (some 5) ∧
    (nextOf (exec (.archiveMark 3 [(2, 6)]) archived)).map (fun t => look t.rings.marks 2) =
      some (some 6) ∧
    nextOf (exec (.archiveMark 3 [(2, 5)]) archived) = some archived ∧
    nextOf (exec (.archiveMark 3 [(16, 6)]) archived) = some archived := by decide +kernel

theorem test_archiveMark_pairs :
    (nextOf (exec (.archiveMark 3 [(2, 6), (2, 9), (16, 1), (2, 8), (15, 5)]) archived)).map (fun t =>
      (look t.rings.marks 2, look t.rings.marks 15)) = some (some 9, some 5) := by decide +kernel

/-- A ready store at a debt, ST_WAIT as given, nothing in progress. -/
def ready (wait : Bool) (debt : Nat) : State :=
  { withStore .ready debt none (inMode .run) with stWait := wait }

theorem test_stWait_raised :
    nextOf (exec .stWaitRaised (ready false 3)) = some (ready true 3) ∧
    nextOf (exec .refreshTick (ready true 3)) = some { ready true 4 with
      store := { (ready true 4).store with ticks := 1, peak := 4 } } := by decide +kernel

theorem test_stWait_released :
    nextOf (exec .stWaitReleased (ready true 6)) = some (withStore .ready 5 (some .refresh) (ready false 6)) ∧
    nextOf (exec .stWaitReleased (ready true 1)) = some (withStore .ready 0 (some .refresh) (ready false 1)) ∧
    nextOf (exec .stWaitReleased { State.reset with stWait := true }) = some State.reset ∧
    nextOf (exec .stWaitReleased (withStore .ready 8 (some .refresh) (ready true 8))) =
      some (withStore .ready 8 (some .refresh) (ready false 8)) ∧
    nextOf (exec .stWaitReleased (withStore .initRefresh 0 none (ready true 0))) =
      some (withStore .initRefresh 0 (some .refresh) (ready false 0)) := by decide +kernel

/-- What is in progress once ST_WAIT is released. -/
def granted (s : State) : Option (Option StoreOp) :=
  (nextOf (exec .stWaitReleased s)).map fun t => t.store.op.map fun o =>
    match o with
    | .writeSlot k p l _ b => .writeSlot k p l [] b
    | .refresh => .refresh
    | .readSlot c p => .readSlot c p

/-- The store ready, with pages staged and page writes begun. -/
def staged (own : List OwnPage) (mirror : List MirrorPage) (c m : Option PageWrite) : State :=
  let s := ready true 5
  { s with store := { s.store with
    capture := own, mirror := mirror, captureWrite := c, mirrorWrite := m } }

/-- A mirror page of station 3. -/
def mirrorPage (t : Slice) : MirrorPage := { slice := t, source := 3, slots := List.replicate 8 none }

/-- A page record of a station, at a place. -/
def record (k : StationId) (t : Slice) (place : Nat) : PageRecord :=
  { slice := t, source := k, absent := 0xFE, stepped := false, unsent := false, place := place }

/-- The rings holding what is given. -/
def holding (own mirror : Ring) (runs : List Run) (s : State) : State :=
  { s with rings := { s.rings with own := own, mirror := mirror, runs := runs } }

theorem test_grant_capture :
    granted (staged [page 4 .awaiting] [] (some { place := 9, lane := 3 }) none) =
      some (some (.writeSlot .capture 9 3 [] true)) ∧
    granted (staged [page 4 .sent] [] none none) = some (some (.writeSlot .capture 0 0 [] true)) ∧
    (nextOf (exec .stWaitReleased (holding { Ring.empty with high := some 4, nextPlace := 7 } Ring.empty []
      (staged [page 4 .sent] [] none none)))).map (fun t =>
        (t.rings.own.nextPlace, t.rings.own.high, t.notices.entries.map (fun n => (n.kind, n.detail)))) =
          some (0, none, [(.ringRestarted, 2)]) := by decide +kernel

theorem test_grant_mirror :
    granted (staged [page 4 .awaiting] [mirrorPage 5] none (some { place := 2, lane := 6 })) =
      some (some (.writeSlot .mirror 32770 6 [] true)) ∧
    granted (staged [] [mirrorPage 5] none none) = some (some (.writeSlot .mirror 32768 0 [] true)) ∧
    (nextOf (exec .stWaitReleased (holding Ring.empty
      { pages := [record 2 5 8], high := some 5, nextPlace := 9 }
      [{ source := 2, first := 5, last := 5, isOpen := true }]
      (staged [] [mirrorPage 5] none none)))).map (fun t =>
        (t.rings.mirror.pages.length, t.rings.runs.length, t.store.mirrorWrite)) =
          some (0, 0, some { place := 8, lane := 0 }) := by decide +kernel

/-- The mirror ring holds a page of slice 5 of station 3, a mirror page of a slice is staged. -/
def backward (t : Slice) : State :=
  holding Ring.empty { pages := [record 3 5 8], high := some 5, nextPlace := 9 }
    [{ source := 3, first := 5, last := 5, isOpen := true }] (staged [] [mirrorPage t] none none)

theorem test_grant_mirror_backward :
    [4, 5].all (fun t => decide ((nextOf (exec .stWaitReleased (backward t))).map (fun t =>
      (t.rings.mirror, t.rings.runs, t.store.mirrorWrite, t.notices.entries)) =
        some (Ring.empty, [], some { place := 0, lane := 0 },
          [{ kind := .ringRestarted, slice := 0, subject := 1, detail := 3 }]))) = true := by
  decide +kernel

theorem test_grant_mirror_discarded :
    (let s := staged [] [mirrorPage 5, mirrorPage 6] none none
     let t := { s with control := { s.control with
      charter := { s.control.charter with mirrorShare := 0 } } }
     t.mirrorCap = 0 ∧ (nextOf (exec .stWaitReleased t)).map (fun t =>
      (t.store.mirror, t.store.op, t.store.debt, t.store.drops)) =
        some ([], some .refresh, 4, 0)) := by decide +kernel

/-- A store of 65,536 pages kept in one ring of which every place is taken, by a page of slice 1. -/
def fullRing : Ring := { pages := List.replicate 32768 (record 0 1 0), high := some 1, nextPlace := 0 }

theorem test_grant_fullRing :
    fullRing.pages.length = (ready true 0).ownCap ∧ fullRing.pages.length = (ready true 0).mirrorCap := by
  constructor <;> exact (List.length_replicate ..)

theorem test_pauseEnd :
    State.reset.store.phase = .pause ∧ State.reset.store.op = none ∧
    (nextOf (exec .pauseEnd State.reset)).map (fun t => (t.store.phase, t.store.op)) =
      some (.initRefresh, some .refresh) := by decide +kernel

/-- INIT_REFRESH with refreshes done and the row counter as given. -/
def refreshing (n : Nat) (row : BitVec 13) : State :=
  let s := withStore .initRefresh 0 (some .refresh) State.reset
  { s with store := { s.store with initDone := n, row := row } }

theorem test_refreshEnd :
    (nextOf (exec .refreshEnd (refreshing 7 8191))).map (fun t => (t.store.phase, t.store.row)) =
      some (.ready, 0) ∧
    (nextOf (exec .refreshEnd (refreshing 6 0))).map (fun t =>
      (t.store.phase, t.store.initDone, t.store.op)) =
        some (.initRefresh, 7, some .refresh) := by decide +kernel

theorem test_storeReady_notice :
    (nextOf (exec .refreshEnd (refreshing 7 8191))).map (fun t => t.notices.entries) =
      some [{ kind := .storeReady, slice := 0, subject := 0, detail := 0 }] := by decide +kernel

theorem test_refreshTick :
    (nextOf (exec .refreshTick (ready true 7))).map (fun t => (t.store.debt, t.store.peak)) =
      some (8, 8) ∧
    nextOf (exec .refreshTick { State.reset with stWait := true }) =
      some { State.reset with stWait := true } ∧
    (nextOf (exec .refreshTick (ready true 8))).map (fun t => (t.store.phase, t.store.reinits)) =
      some (.pause, 1) ∧
    (nextOf (exec .refreshTick (ready false 5))).map (fun t => (t.store.op, t.store.debt, t.store.ticks)) =
      some (some .refresh, 5, 1) := by decide +kernel

/-- A slot write of three bytes in progress. -/
def writing (p : Nat) : State :=
  withStore .ready 0 (some (.writeSlot .mirror p 2 [1, 0, 3] false)) (ready true 0)

theorem test_slotWriteEnd :
    (writing 65535).dramWf = true ∧ 65535 < storePages 0 ∧ slotAddress 65535 2 = 268432384 ∧
    (nextOf (exec .slotWriteEnd (writing 65535))).map (fun t => t.dram) =
      some [(268432384, 1), (268432386, 3)] ∧
    faultOf (exec .slotWriteEnd (writing 65536)) = some .outsideStore := by decide +kernel

/-- The eighth slot of a page under way. -/
def lastSlot : State :=
  let s := withStore .ready 0 (some (.writeSlot .capture 9 7 [1] true)) (ready true 0)
  { s with store := { s.store with
    captureWrite := some { place := 9, lane := 7 }, capture := [page 4 .sent] } }

theorem test_eighthSlot :
    (nextOf (exec .slotWriteEnd lastSlot)).map (fun t =>
      (t.rings.own.pages.map (fun r => (r.slice, r.place, r.unsent, r.absent)),
        t.store.capture.length)) = some ([(4, 9, false, 0xFE)], 0) := by decide +kernel

/-- The eighth slot of a mirror page of slice 5, with a run list. -/
def lastMirrorSlot (runs : List Run) : State :=
  let s := withStore .ready 0 (some (.writeSlot .mirror 40000 7 [1] true)) (ready true 0)
  holding Ring.empty { Ring.empty with pages := [record 2 1 0, record 3 4 1] } runs
    { s with store := { s.store with
      mirrorWrite := some { place := 2, lane := 7 }, mirror := [mirrorPage 5] } }

/-- The runs and the number of pages after it. -/
def mirrored (runs : List Run) : Option (List Run × Nat) :=
  (nextOf (exec .slotWriteEnd (lastMirrorSlot runs))).map fun t =>
    (t.rings.runs, t.rings.mirror.pages.length)

/-- A run of one station. -/
def run (k : StationId) (first last : Slice) (isOpen : Bool) : Run :=
  { source := k, first := first, last := last, isOpen := isOpen }

theorem test_mirror_runs :
    mirrored [run 3 4 4 true] = some ([run 3 4 5 true], 3) ∧
    mirrored [run 3 3 3 true] = some ([run 3 3 3 false, run 3 5 5 true], 3) ∧
    mirrored [run 2 1 1 false, run 3 4 4 false, run 3 4 4 false, run 3 4 4 true] =
      some ([run 2 1 1 false, run 3 4 4 false, run 3 4 4 false, run 3 4 5 true], 3) ∧
    mirrored [run 2 1 1 false, run 3 4 4 false, run 4 4 4 false, run 4 4 4 true] =
      some ([run 3 4 4 false, run 4 4 4 false, run 4 4 4 false, run 3 5 5 true], 2) := by
  decide +kernel

/-- The check words in a form the kernel evaluates register by register. -/
def strictFold {w : Nat} (f : BitVec w → Byte → BitVec w) : List Byte → BitVec w → BitVec w
  | [], r => r
  | b :: bs, r =>
    match (f r b).toNat with
    | 0 => strictFold f bs 0
    | n + 1 => strictFold f bs (BitVec.ofNat w (n + 1))

theorem strictFold_eq {w : Nat} (f : BitVec w → Byte → BitVec w) (bs : List Byte) (r : BitVec w) :
    strictFold f bs r = bs.foldl f r := by
  induction bs generalizing r with
  | nil => rfl
  | cons b bs ih =>
    rw [strictFold, List.foldl_cons]
    split
    · next h => rw [ih, show f r b = 0 from BitVec.eq_of_toNat_eq (by simpa using h)]
    · next n h => rw [ih, show n + 1 = (f r b).toNat from h.symm, BitVec.ofNat_toNat, BitVec.setWidth_eq]

/-- An empty slot whose two check bytes read as given. -/
def zeroSlot (lo hi : Byte) : List Byte := zeros 510 ++ [lo, hi]

theorem test_slot_checkWord :
    slotGood (zeroSlot 0xB7 0x44) { source := 0, slice := 0, lane := 0 } = true := by
  rw [slotGood, crc16, ← strictFold_eq]
  decide +kernel

theorem test_slot_otherSlice :
    slotGood (zeroSlot 0xB7 0x44) { source := 0, slice := 4, lane := 1 } = false := by
  rw [slotGood, decide_eq_false_iff_not]
  rintro ⟨_, h, _⟩
  revert h
  decide +kernel

theorem test_slot_layout :
    (slotBytes 4 3 0 (some (block 4 0 5)) 5).length = 512 ∧
    (slotBytes 4 3 0 (some (block 4 0 5)) 5).take 14 = [4, 0, 0, 0, 3, 0, 0, 0, 3, 0, 1, 5, 5, 0] := by
  decide +kernel

/-! ### Recall service -/

/-- A request of station 3 for lanes 1 and 2 of this station's slices 4 to 6. -/
def request3 : RecallId :=
  { requester := 3, tag := 9, source := 0, mask := 6, first := 4, last := 6 }

/-- The same, queued. -/
def queued : State :=
  let s := ready true 0
  { s with server := { s.server with
    queue := [{ id := request3, blocksSent := 0, gapsSent := 0 }]
    cursor := some { request := request3, place := .slot 4 1 }
    pos := some { request := request3, place := .slot 4 1 } } }

theorem test_recall_accepted :
    nextOf (exec (.recallRequest 3 9 0 0 6 4 6) (ready true 0)) = some queued ∧
    ((6003 : Slice) - 4).toNat < 6000 ∧
    (nextOf (exec (.recallRequest 3 9 0 15 6 4 6003) (ready true 0))).map (fun t =>
      t.server.queue.length) = some 1 := by decide +kernel

theorem test_recall_turnedAway :
    nextOf (exec (.recallRequest 3 9 1 0 6 4 6) (ready true 0)) = some (ready true 0) ∧
    nextOf (exec (.recallRequest 3 8 0 0 6 4 6) queued) = some queued ∧
    [(0x10#8, 6#8, 6#32), (0#8, 0#8, 6#32), (0#8, 6#8, 6004#32), (0#8, 6#8, 3#32)].all (fun p =>
      (nextOf (exec (.recallRequest 3 9 0 p.1 p.2.1 4 p.2.2) (ready true 0))).map (fun t =>
        t.notices.entries.map Notice.kind) == some [.recallRefused]) = true := by decide +kernel

/-- The recall queue full of requests of station 4. -/
def fullRecall : State :=
  let r : RecallRequest := { id := { request3 with requester := 4 }, blocksSent := 0, gapsSent := 0 }
  { ready true 0 with server := { Recall.reset with queue := List.replicate 8 r } }

/-- No mirror is kept. -/
def noMirror : State :=
  let s := ready true 0
  { s with control := { s.control with charter := { s.control.charter with mirrorShare := 0 } } }

theorem test_recall_refused :
    fullRecall.server.queue.length = 8 ∧ noMirror.control.charter.mirrorShare = 0 ∧
    (nextOf (exec (.recallRequest 3 9 0 0 6 4 6) fullRecall)).map (fun t =>
      t.notices.entries.map Notice.kind) = some [.recallRefused] ∧
    (nextOf (exec (.recallRequest 3 9 0 1 6 4 6) noMirror)).map (fun t =>
      t.notices.entries.map Notice.kind) = some [.recallRefused] := by decide +kernel

/-- A read of slice 4, lane 1 in flight from page 8, marked discarded or not; the slot holds what the
DRAM list says. -/
def reading (discard : Bool) (dram : List Host.Cell) : State :=
  let s := withStore .ready 0 (some (.readSlot { source := 0, slice := 4, lane := 1 } 8)) queued
  { s with
    dram := dram
    server := { s.server with
      inFlight := some { pos := { request := request3, place := .slot 4 1 }, discard := discard } } }

theorem test_slotReadEnd_premises :
    (reading false []).stWait = true ∧ (reading false []).server.reading = false ∧
    (reading false []).server.inFlight = some
      { pos := { request := request3, place := .slot 4 1 }, discard := false } ∧
    damaged (Memory.readBytes [] (slotAddress 8 1) 512) [(510, 0xB7), (511, 0x44)] =
      zeroSlot 0xB7 0x44 := by decide +kernel

theorem test_slotReadEnd_discarded :
    (nextOf (exec (.slotReadEnd []) (reading true []))).map (fun t =>
      (t.server.buffer, t.server.inFlight, t.store.op)) = some ([], none, none) := by decide +kernel

theorem test_slotReadEnd_readingPeriod :
    (let s := reading false []
     let t := { s with server := { s.server with reading := true } }
     t.server.reading = true ∧ t.server.claim = none ∧ (1 : Lane) < 2 ∧
     request3.mask.getLsbD (2 : Lane).val = true ∧
     (∀ j : Lane, 1 < j → j < 2 → request3.mask.getLsbD j.val = false) ∧
     (t.server.buffer.map (fun i => i.item.size)).sum +
       (RecallItem.block (block 4 1 5) 1 false).size + 336 ≤ 19940) := by decide +kernel

theorem test_slotReadEnd_done :
    (let r := { request3 with mask := 2, last := 4 }
     let q : RecallRequest := { id := r, blocksSent := 3, gapsSent := 1 }
     let s := reading false []
     let t := { s with server := { s.server with
       reading := true, queue := [q]
       inFlight := some { pos := { request := r, place := .slot 4 1 }, discard := false } } }
     t.server.claim = none ∧ t.server.queue = [] ++ q :: [] ∧ t.server.buffer = [] ∧
     (∀ k : Lane, 1 < k → r.mask.getLsbD k.val = false) ∧
     (RecallItem.block (block 4 1 5) 1 false).size + 8 + 336 ≤ 19940) := by decide +kernel

theorem test_fetchSlot_mirror (s : State) (c : Claim) (p : Nat) (d : List (Fin 512 × Byte)) (b : Block)
    (code : Byte) (u : Bool) (other : c.source ≠ s.control.id)
    (h : s.fetchSlot c p d = some (.block b code u)) : u = false := by
  simp only [State.fetchSlot, decide_eq_false other, Bool.false_and] at h
  split at h
  · cases h; rfl
  · cases h

theorem test_gap_runs :
    (let g := holding { pages := [record 0 4 0, record 0 7 1], high := some 7, nextPlace := 2 } Ring.empty
      [] queued
     let at_ (t : Slice) (l : Lane) := { g with server := { g.server with
       pos := some { request := { request3 with last := 9 }, place := .slot t l } } }
     [((5, 1), .missing), ((8, 1), .notYet), ((3, 1), .beforeRetention), ((5, 2), .missing),
       ((4, 1), .absent), ((9, 2), .absent)].map (fun (x : (Slice × Lane) × Lookup) =>
        let u := (at_ x.1.1 x.1.2).produceLookup x.2
        (u.server.buffer.map BufferItem.item, u.server.pos.map ReadPos.place)) =
      [([.gap 6 5 6 .missing], some (.slot 7 1)), ([.gap 6 8 9 .notYet], some .done),
       ([.gap 6 3 3 .beforeRetention], some (.slot 4 1)), ([.gap 4 5 5 .missing], some (.slot 6 1)),
       ([.gap 2 4 4 .absent], some (.slot 4 2)), ([.gap 4 9 9 .absent], some .done)]) := by
  decide +kernel

theorem test_gap_then_done :
    (let s := { queued with server := { queued.server with
       reading := true, claim := some { source := 0, slice := 4, lane := 1 } } }
     s.store.debt = 0 ∧ s.lookup 0 4 1 = .beforeRetention ∧ s.lookup 0 5 1 = .beforeRetention ∧
     s.lookup 0 6 1 = .beforeRetention ∧
     (nextOf (exec .stWaitReleased s)).map (fun t =>
      (t.server.buffer.map BufferItem.item, t.server.pos.map ReadPos.place, t.server.claim,
        t.store.op)) =
        some ([.gap 6 4 6 .beforeRetention, .done 0 1], some .done, none, none)) := by
  decide +kernel

theorem test_lookups :
    (let g := (holding { pages := [record 0 4 0, record 0 6 1], high := some 6, nextPlace := 2 }
      { pages := [record 3 4 0], high := some 4, nextPlace := 1 }
      [run 3 4 4 false, run 5 3 5 true] State.reset).rings
     [g.lookupOwn 4 0, g.lookupOwn 4 1, g.lookupOwn 7 0, g.lookupOwn 3 0, g.lookupOwn 5 0,
      Rings.reset.lookupOwn 3 0, g.lookupMirror none 3 4 0, g.lookupMirror none 3 4 1,
      g.lookupMirror none 5 4 0, g.lookupMirror (some 5) 5 6 0, g.lookupMirror none 5 6 0] =
     [.held (record 0 4 0), .absent, .notYet, .beforeRetention, .missing, .beforeRetention,
      .held (record 3 4 0), .absent, .missing, .notYet, .missing]) := by decide +kernel

theorem test_grant_read :
    (let s := holding { pages := [record 0 4 6], high := some 4, nextPlace := 7 } Ring.empty [] queued
     let t := { s with server := { s.server with claim := some { source := 0, slice := 4, lane := 0 } } }
     t.lookup 0 4 0 = .held (record 0 4 6) ∧
     granted t = some (some (.readSlot { source := 0, slice := 4, lane := 0 } 6))) := by
  decide +kernel

/-- Holding the window, a gap item in the buffer, its handed mark as given. -/
def buffered (read handed : Bool) : State :=
  { queued with
    clock := { queued.clock with discipline := .selfRef }
    server := { queued.server with
      holds := true, reading := read
      buffer := [{ request := request3, place := .slot 4 1, item := .gap 2 4 4 .absent
                   handed := handed }] } }

theorem test_recallWindowStart :
    (buffered true false).mayTransmit = true ∧
    (nextOf (exec .recallWindowStart (buffered true false))).map (fun t =>
      (t.link.tx, t.server.reading, t.server.buffer.map BufferItem.handed)) =
        some (.sendingRecall, false, [true]) ∧
    (let s := { queued with server := { queued.server with reading := true } }
     nextOf (exec .recallWindowStart s) = some queued) ∧
    nextOf (exec .recallWindowStart (buffered false false)) = some (buffered false false) := by
  decide +kernel

/-- A recall frame of one item in flight, of two bytes. -/
def sendingRecall : State := withFlight (.recallFrame 1 [0x55, 2]) (buffered false true)

theorem test_recallFrameSent :
    (nextOf (exec .recallFrameSent sendingRecall)).map (fun t =>
      (t.link.lastHolder, t.server.buffer, t.server.queue.map RecallRequest.gapsSent)) =
        some (0, [], [1]) := by decide +kernel

/-- Two requests queued, the first with its DONE item handed; the buffer's rest as given. -/
def finishing (rest : List BufferItem) : State :=
  let s := withFlight (.recallFrame 1 []) queued
  { s with server := { s.server with
    queue := [{ id := request3, blocksSent := 0, gapsSent := 0 },
      { id := { request3 with tag := 1 }, blocksSent := 0, gapsSent := 0 }]
    pos := some { request := { request3 with tag := 1 }, place := .slot 5 1 }
    buffer := { request := request3, place := .done, item := .done 0 0, handed := true } :: rest } }

theorem test_recallFrameSent_newHead :
    (nextOf (exec .recallFrameSent (finishing []))).map (fun t =>
      (t.server.queue.length, t.server.cursor)) =
        some (1, some { request := { request3 with tag := 1 }, place := .slot 4 1 }) ∧
    (nextOf (exec .recallFrameSent (finishing [{
      request := { request3 with tag := 1 }, place := .slot 6 2, item := .gap 4 6 6 .absent
      handed := false }]))).map (fun t => t.server.cursor) =
        some (some { request := { request3 with tag := 1 }, place := .slot 6 2 }) := by decide +kernel

/-- At a debt of 8: a page staged whose write has begun, a page in the own ring, and an item in the read
buffer behind one that is handed; the transmitter and the reading period as given. -/
def storeFaulting (tx : TxState) (read : Bool) : State :=
  let s := withStore .ready 8 none (buffered read true)
  { s with
    stWait := true
    link := { s.link with tx := tx }
    store := { s.store with
      capture := [page 5 .sent], captureWrite := some { place := 1, lane := 2 } }
    rings := { s.rings with own := { pages := [record 0 4 0], high := some 4, nextPlace := 1 } }
    server := { s.server with
      buffer := s.server.buffer ++ [{ request := request3, place := .slot 5 1
                                      item := .gap 2 5 5 .absent, handed := false }] } }

theorem test_storeFault_notices :
    (storeFaulting .silent true).storeFault.raised.map Raised.notice =
      [{ kind := .storeFault, slice := 0, subject := 1, detail := 1 },
        { kind := .ringRestarted, slice := 0, subject := 0, detail := 4 }] ∧
    (nextOf (exec .refreshTick (ready true 8))).map (fun t => t.notices.entries) =
      some [{ kind := .storeFault, slice := 0, subject := 0, detail := 0 }] := by decide +kernel

theorem test_storeFault_rewinds :
    [(TxState.sendingRecall, true), (.sendingRecall, false), (.silent, true)].map (fun x =>
      (nextOf (exec .refreshTick (storeFaulting x.1 x.2))).map (fun t =>
        (t.server.buffer.length, t.server.pos.map ReadPos.place, t.server.claim.map Claim.slice))) =
      [some (1, some (.slot 5 1), some 5), some (1, some (.slot 5 1), none),
        some (1, some (.slot 4 1), some 4)] := by decide +kernel

/-- As `storeFaulting .silent true`, the cursor as given, with handed block items besides in the buffer. -/
def rewinding (cursor : Option ReadPos) (blocks : Nat) : State :=
  let s := storeFaulting .silent true
  let item : BufferItem :=
    { request := request3, place := .slot 4 0, item := .block (block 4 0 5) 0 false, handed := true }
  { s with server := { s.server with
    cursor := cursor, buffer := s.server.buffer ++ List.replicate blocks item } }

theorem test_storeFault_readingPeriod :
    (nextOf (exec .refreshTick (rewinding (some { request := request3, place := .done }) 0))).map
      (fun t => (t.server.buffer.map BufferItem.item, t.server.claim)) =
        some ([.gap 2 4 4 .absent, .done 0 1], none) ∧
    (nextOf (exec .refreshTick (rewinding none 0))).map (fun t => (t.server.pos, t.server.claim)) =
      some (none, none) ∧
    [58, 59, 60].map (fun n =>
      (nextOf (exec .refreshTick (rewinding (some request3.start) n))).map (fun t =>
        t.server.claim.isSome)) = [some true, some false, some false] := by decide +kernel

/-- What is read of two bytes driven when one half-cell is near zero differential. -/
def disturbed (i : Nat) : List LineLevel := (lineLevels [0x55, 2]).set i .zero

theorem test_recallFrameAborted :
    sendingRecall.raised = [] ∧
    (nextOf (exec (.recallFrameAborted (disturbed 17)) sendingRecall)).map (fun t =>
      (t.server.buffer, t.server.queue.length, t.notices.entries.map (fun n =>
        (n.kind, n.subject, n.detail)))) = some ([], 1, [(.collision, 1, 1)]) ∧
    nextOf (exec (.recallFrameAborted ((disturbed 17).take 17)) sendingRecall) = some sendingRecall := by
  decide +kernel

/-! ### Room link -/

/-- This station in RUN as its own reference, one page awaiting its window, three items in the
outbox. -/
def beforeWindow : State :=
  let s := ready true 0
  { s with
    clock := { s.clock with discipline := .selfRef }
    spans := { s.spans with outbox := [openItem3, closeItem3, openItem3] }
    store := { s.store with capture := [page 4 .awaiting] } }

theorem test_ownWindowStart :
    beforeWindow.active = true ∧ beforeWindow.link.tx = .silent ∧
    (nextOf (exec .ownWindowStart beforeWindow)).map (fun t => (t.link.tx, t.link.rx)) =
      some (.sendingWindow, .readback) := by decide +kernel

theorem test_ownWindowStart_suppressed :
    (let s := { beforeWindow with clock := { beforeWindow.clock with discipline := .realign } }
     (nextOf (exec .ownWindowStart s)).map (fun t =>
      (t.seat.unsentSlices, t.store.capture.map OwnPage.outcome)) = some (1, [.unsent])) ∧
    (inMode .listen).active = false := by decide +kernel

/-- Its window frame in flight: the page, two items, two periodic items, the claim, two bytes. -/
def sendingWindow : State :=
  let s := withFlight (.windowFrame (some 4) 2 0 [.spanBeacon, .counterReport] true [0x55, 2])
    beforeWindow
  { s with link := { s.link with tx := .sendingWindow, due := [.spanBeacon, .rosterView] } }

theorem test_windowFrameSent :
    (nextOf (exec .windowFrameSent sendingWindow)).map (fun t =>
      (t.spans.outbox, t.link.due, t.link.claims, t.store.capture.map OwnPage.outcome)) =
        some ([openItem3], [.rosterView], [0], [.sent]) := by decide +kernel

theorem test_windowFrameSent_dropped :
    (let s := { sendingWindow with notices := { (fullQueue sendingWindow).notices with
       dropped := 7, droppedSince := 2, carried := some (4, 5) } }
     s.stWait = true ∧ (nextOf (exec .windowFrameSent s)).map (fun t =>
      (t.notices.entries.length, t.notices.dropped, t.notices.droppedSince, t.notices.carried)) =
        some (60, 2, 0, none)) := by
  decide +kernel

theorem test_windowFrameAborted :
    (nextOf (exec (.windowFrameAborted (disturbed 15)) sendingWindow)).map (fun t =>
      (t.spans.outbox.length, t.link.due, t.link.collisions, t.store.capture.map OwnPage.outcome)) =
        some (3, [.spanBeacon, .rosterView], 1, [.unsent]) ∧
    (nextOf (exec (.windowFrameAborted (disturbed 15)) sendingWindow)).map (fun t => t.notices.entries) =
      some [{ kind := .collision, slice := 0, subject := 0, detail := 0 }] ∧
    nextOf (exec (.windowFrameAborted (lineLevels [0x55, 2])) sendingWindow) = some sendingWindow := by
  decide +kernel

theorem test_lineCode :
    lineLevels [0xAA] = [.up, .up, .down, .up, .down, .down, .up, .down, .up, .up, .down, .up, .down,
      .down, .up, .down] ∧
    readLevels (lineLevels [0xAA, 0, 0xC5]) = [0xAA, 0, 0xC5] ∧
    sendingWindow.lineDriven = lineLevels [0x55, 2] ∧ State.reset.lineDriven = [] := by decide +kernel

theorem test_silence :
    [4, 5].map (fun n => readsSilence (.up :: List.replicate n .zero)) = [false, true] ∧
    readsSilence (lineLevels [0, 0xFF, 0x0F]) = false := by decide +kernel

theorem test_collision_bothMismatch :
    (let line := List.zipWith mixed (lineLevels [0x55, 1]) (lineLevels [0x55, 3])
     bytesBeforeMismatch [0x55, 1] line = some 1 ∧ bytesBeforeMismatch [0x55, 3] line = some 1 ∧
     line.getD 19 .up = .zero ∧ bytesBeforeMismatch [0x55, 1] (lineLevels [0x55]) = none) := by
  decide +kernel

theorem test_alertN :
    (let alert : Notice := { kind := .collision, slice := 1, subject := 0, detail := 8 }
     let s := { State.reset with notices := { NoticeQueue.reset with entries := [alert] } }
     s.alertN = false ∧ ({ s with resetN := false } : State).alertN = true ∧
     (fullQueue State.reset).alertN = true) := by decide +kernel

/-- The receiver in RECEIVING. -/
def receiving : State := withRx .receiving (ready true 0)

/-- In a slice begun after another, at its first count. -/
def secondSlice : State :=
  { State.reset with clock := { Clock.reset with index := 8, lastIndex := some 7 } }

theorem test_leadInFound :
    (nextOf (exec (.leadInFound 1224 24) State.reset)).map (fun t =>
      (t.link.rx, t.link.leadIn, t.clock.divider)) =
        some (.receiving, some { slice := 0, count := 1200, boundaries := 0 }, 1224) ∧
    (nextOf (exec (.leadInFound 3 24) secondSlice)).map (fun t => (t.link.rx, t.link.leadIn)) =
      some (.receiving, some { slice := 7, count := 239979, boundaries := 1 }) ∧
    (nextOf (exec (.leadInFound 3 24) State.reset)).map (fun t => (t.link.rx, t.clock.divider)) =
      some (.hunting, 3) ∧
    (nextOf (exec (.leadInFound 0 24) receiving)) = some receiving := by decide +kernel

/-- A window frame's header with counts of blocks and of request items. -/
def header (blocks requests : Byte) : List Byte :=
  [1, 3, 2, 0] ++ le32 4 ++ le32 1 ++ le32 0 ++ [1, 0xFF, 2, 0, blocks, 0, 0, 0, requests, 0] ++ zeros 22

theorem test_frameHeaderReceived :
    headerTooLong (header 8 216) = true ∧ headerTooLong (header 8 213) = false ∧
    (nextOf (exec (.frameHeaderReceived (header 8 216)) receiving)).map (fun t =>
      (t.link.rx, t.link.rejects)) = some (.hunting, 1) ∧
    nextOf (exec (.frameHeaderReceived (header 8 213)) receiving) = some receiving := by decide +kernel

theorem test_recallHeader :
    (let h (n : Byte) (size : Word) : List Byte := [2, 3, n, 9] ++ le32 4 ++ le32 size ++ zeros 4
     [headerTooLong (h 188 100), headerTooLong (h 189 100), headerTooLong (h 0 19940),
      headerTooLong (h 0 19941)] = [false, true, false, true]) := by decide +kernel

theorem test_frameCutBySilence :
    nextOf (exec .frameCutBySilence receiving) = some (let s := withRx .hunting (ready true 0)
      { s with link := { s.link with rejects := 1 } }) := by decide +kernel

/-- A capture station's header in RUN, of ID 3, slice 9, join slice as given. -/
def capHeader (join : Word) : List Byte :=
  [1, 3, 1, 1] ++ le32 9 ++ le32 join ++ le32 0 ++ [1, 0xFF, 0, 0, 0, 0, 0, 0, 0, 0] ++ zeros 22

/-- Bytes with their CRC-32. -/
def checked (bs : List Byte) : List Byte := bs ++ le32 (crc32 bs)

theorem test_frameReceived_window :
    (nextOf (exec (.frameReceived (checked (header 0 0))) receiving)).map (fun t =>
      ((look t.roster.entries 3).state, (look t.roster.entries 3).kind, t.link.claims, t.link.rx)) =
        some (.present, some .console, [3], .hunting) ∧
    (nextOf (exec (.frameReceived (header 0 0)) receiving)).map (fun t =>
      (t.link.rejects, t.link.rx)) = some (1, .hunting) := by decide +kernel

/-- In RECEIVING with a lead-in held, peer 3 the reference, the clock in a state. -/
def hearing (d : Discipline) (m : Mode) (count : Nat) (e : RosterEntry) : State :=
  let s := withRx .receiving (withPeer e (inMode m))
  { s with
    clock := { s.clock with discipline := d, index := 9 }
    roster := { s.roster with reference := some 3 }
    control := { s.control with id := 7 }
    link := { s.link with leadIn := some { slice := 9, count := count, boundaries := 0 } }
    stWait := true }

/-- Peer 3 of join slice 5, in a state. -/
def known (p : PeerState) : RosterEntry :=
  { peer .capture with state := p, join := some 5, lastBlock := some 8 }

/-- The trim, the step plan and the first notice after a window frame of peer 3. -/
def heardFrame (join : Word) (s : State) : Option (Int × Option StepPlan × Option Half) :=
  (nextOf (exec (.frameReceived (checked (capHeader join))) s)).map fun t =>
    (t.clock.trim, t.clock.plan, t.notices.entries.head?.map Notice.detail)

theorem test_frameReceived_clock :
    heardFrame 5 (hearing .tracking .run 33640 (known .present)) = some (5, none, some 255) ∧
    heardFrame 5 (hearing .realign .run 33640 (known .present)) =
      some (0, some { count := 240040, index := 10 }, some 255) ∧
    heardFrame 5 (hearing .free .listen 600 (known .present)) =
      some (0, some { count := 207000, index := 10 }, none) := by decide +kernel

theorem test_frameReceived_incarnations :
    [(5, RosterEntry.reset), (5, known .lost), (6, known .lost), (6, known .present)].map (fun x =>
      heardFrame x.1 (hearing .tracking .run 33600 x.2)) =
        [some (0, none, some 0), some (0, none, some 1), some (0, none, some 2),
          some (0, none, some 3)] ∧
    (nextOf (exec (.frameReceived (checked (capHeader 6))) (withTable [entry3 .opened]
      (hearing .tracking .run 33600 (known .present))))).map (fun t =>
        t.spans.table.map SpanEntry.status) = some [.closed 10 .stationLost] := by decide +kernel

theorem test_frameReceived_condition :
    (nextOf (exec (.frameReceived (checked (capHeader 5))) (hearing .free .listen 600 (known .present)))).map
      (fun t => t.control.followed) = some (some .onRecord) ∧
    (let s := hearing .tracking .run 33600 (known .present)
     (nextOf (exec (.frameReceived (checked (capHeader 5))) { s with
      control := { s.control with correction := true } })).map (fun t =>
        (t.control.pendingCondition, t.control.correction))) = some (some .onRecord, false) := by
  decide +kernel

/-- Station 3's frame with one block of slice 9, lane 2. -/
def blockFrame : List Byte :=
  [1, 3, 1, 1] ++ le32 10 ++ le32 5 ++ le32 0 ++ [1, 0xFF, 0, 0, 1, 0, 0, 0, 0, 0] ++ zeros 22
    ++ (block 9 2 5).bytes ++ [0xF9, 0x61, 0xCE, 0xD9]

/-- What station 7 reads in it. -/
def blockHeard : WindowFrame :=
  { header := {
      sender := 3, kind := .capture, activity := some .run, index := 10, join := 5, digest := 0
      condition := .onRecord, mirror := none, lock := false, claim := false }
    blocks := [block 9 2 5], spans := [], beacons := [], requests := [] }

theorem test_blockFrame_check : crcGood blockFrame = true := by
  rw [crcGood, crc32, ← strictFold_eq]
  decide +kernel

theorem test_blockFrame_read : judgeFrame 7 blockFrame = .windowFrame blockHeard := by
  rw [judgeFrame, readWindow, test_blockFrame_check]
  decide +kernel

theorem test_frameReceived_mirror :
    (let t := ((hearing .tracking .run 33600 (known .present)).acceptWindow blockHeard none).finish
     (t.roster.mirror, t.store.mirror.map (fun p =>
        (p.slice, p.source, p.slots.map Option.isSome))) =
      (some 3, [(9, 3, [false, false, true, false, false, false, false, false])])) ∧
    (nextOf (exec (.frameReceived (checked (capHeader 5))) (holding Ring.empty Ring.empty
      [run 3 4 5 true] (hearing .tracking .run 33600 (known .present))))).map (fun t => t.rings.runs) =
        some [run 3 4 5 false] := by decide +kernel

theorem test_frameReceived_mirrorFull :
    (let s := hearing .tracking .run 33600 (known .present)
     let full := { s with store := { s.store with mirror := [mirrorPage 1, mirrorPage 2] } }
     let t := (full.acceptWindow blockHeard none).finish
     (t.store.mirror.map MirrorPage.slice, t.store.drops)) = ([2, 9], 1) := by decide +kernel

theorem test_frameReceived_recall :
    judgeFrame 0 (checked (recallProper 3 5 (buffered true true).server.buffer)) = .recallFrame 3 ∧
    nextOf (exec (.frameReceived (checked (recallProper 3 5 (buffered true true).server.buffer))) receiving) =
      some (let s := withRx .hunting (ready true 0)
        { s with link := { s.link with lastHolder := 3 } }) := by decide +kernel

theorem test_rejected_clauses :
    crcGood (header 0 0) = false ∧ byteAt (checked (zeros 48)) 0 ≠ 1 ∧
    judgeFrame 3 (checked (header 0 0)) = .rejected ∧
    judgeFrame 0 (checked (zeros 48)) = .rejected := by decide +kernel

theorem test_nextHolder :
    nextHolder 3 [] = none ∧ nextHolder 3 [3, 1, 7] = some 7 ∧ nextHolder 15 [3, 15] = some 3 ∧
    nextHolder 3 [3] = some 3 := by decide

theorem test_periodicPlan :
    (let s := inMode .run
     let t := { s with clock := { s.clock with index := 99 } }
     (nextOf (exec (.sliceBoundary true) t)).map (fun t => t.link.due)) =
       some [.spanBeacon, .rosterView] ∧
    (nextOf (exec (.stepBoundary true) (planned .realign .run))).map (fun t => t.link.due) =
      some [.spanBeacon, .rosterView, .counterReport] := by decide +kernel

theorem test_spanItem_roundTrip :
    closeItem3.wf = true ∧ readSpanItem (itemBytes closeItem3 ++ [7]) = some (some closeItem3, [7]) := by
  decide +kernel

theorem test_ownFrame_premises :
    beforeWindow.frameBlocks.length = 1 ∧ blocksInOrder beforeWindow.frameBlocks = true ∧
    beforeWindow.framePlan = [] ∧ (∀ i ∈ beforeWindow.spans.outbox, i.wf = true) ∧
    (∀ b ∈ beforeWindow.frameBlocks, b.samples.length = 160 ∧ b.missing ≤ 160 ∧ b.level ≤ 16) := by
  decide +kernel

/-- The same, an own span open and every periodic item pending. -/
def beforeFullWindow : State :=
  let s := withTable [{ entry3 .opened with key := key0 }] beforeWindow
  { s with link := { s.link with due := [.spanBeacon, .rosterView, .mirrorRuns, .counterReport] } }

theorem test_ownFrame_periodic :
    .spanBeacon ∈ beforeFullWindow.framePlan ∧ beforeFullWindow.link.due.Nodup ∧
    (∀ i ∈ beforeFullWindow.beaconEntries, i.wf = true) ∧
    beforeFullWindow.beaconEntries.length = 1 := by decide +kernel

theorem test_invariants_premises :
    (inMode .run).inRange = true ∧ (inMode .run).dramWf = true ∧ (inMode .run).raised = [] ∧
    (inMode .run).placesInside = true ∧ lastSlot.placesInside = true ∧
    (writing 65536).placesInside = false ∧
    (nextOf (step { inMode .run with pending := [.sliceBoundary true] })).isSome = true := by
  decide +kernel

theorem test_notices_oneRaiser :
    (let n : Notice := { kind := .locked, slice := 1, subject := 2, detail := 3 }
     (mergeRaised 2 0 [{ raiser := .clock, notice := n }, { raiser := .clock, notice := n }]).1) =
       List.replicate 2 { kind := .locked, slice := 1, subject := 2, detail := 3 } := by decide

theorem test_slotReadEnd_outside :
    storePages State.reset.control.sizeCode ≤ 65536 ∧
    faultOf (exec (.slotReadEnd []) (withStore .ready 0 (some (.readSlot { source := 0, slice := 4, lane := 1 }
      65536)) State.reset)) = some .outsideStore := by decide +kernel

end Sys2Proof.Tests
end

section
/-! SUPPORT. Proofs about the court clock (chapter 1): which operations of a slice boundary leave
the clock as it is, what a boundary makes of the trim (R2, R3, R10), and the time of day (R17). -/

namespace Sys2Proof.Machine

/-! ### Operations that keep the whole clock -/

theorem OnlySpans.clock {s t : State} : OnlySpans s t → t.clock = s.clock := by
  rintro ⟨_, _, rfl⟩; rfl
theorem OnlyStorage.clock {s t : State} : OnlyStorage s t → t.clock = s.clock := by
  rintro ⟨_, _, _, _, rfl⟩; rfl

/-- A left fold keeps the clock when each of its steps does. -/
theorem foldl_clock {α : Type} (f : State → α → State) (step : ∀ s a, (f s a).clock = s.clock)
    (l : List α) (s : State) : (l.foldl f s).clock = s.clock :=
  foldl_frame (P := fun s t => t.clock = s.clock) (fun _ => rfl) (fun h h' => h'.trans h) f step l s

@[simp] theorem grant_clock (s : State) : s.grant.clock = s.clock := (grant_frame s).clock

@[simp] theorem finish_clock (s : State) : s.finish.clock = s.clock := by
  simp only [State.finish, settleNotices_clock, grant_clock]

@[simp] theorem ageing_clock (s : State) :
    s.ageOrphans.timeOutOrphans.ageEntries.clock = s.clock := rfl

@[simp] theorem losePeer_clock (s : State) (k : StationId) : (s.losePeer k).clock = s.clock := by
  unfold State.losePeer
  refine (purgeRecall_frame _ _).storage.clock.trans ?_
  split
  · exact (custodyReport_frame _ _ _ _).clock
  · exact (lossReport_frame _ _ _).clock

@[simp] theorem losePeers_clock (s : State) : s.losePeers.clock = s.clock := by
  refine foldl_clock _ (fun s k => ?_) _ _
  split
  · exact losePeer_clock s k
  · rfl

@[simp] theorem settleUnsent_clock (s : State) : s.settleUnsent.clock = s.clock := by
  unfold State.settleUnsent; split <;> rfl

@[simp] theorem updateLane_clock (o : State) (p : Presented) (s : State) (l : Lane) :
    (o.updateLane p s l).clock = s.clock := by
  unfold State.updateLane; dsimp only; split <;> rfl

@[simp] theorem capturedBoundary_clock (s : State) (p : Presented) (q : Option Split) :
    (s.capturedBoundary p q).clock = s.clock := by
  unfold State.capturedBoundary
  calc _ = _ := (stageCapture_frame _ _).storage.clock
    _ = _ := foldl_clock _ (fun t l => (detectorLane_frame t l _ _ _ _).clock) _ _
    _ = _ := foldl_clock _ (updateLane_clock s p) _ _

/-- Seat capture and the span detectors do not touch the clock at a boundary. -/
@[simp] theorem seatBoundary_clock (s : State) (p : Presented) (q : Option Split) :
    (s.seatBoundary p q).clock = s.clock := by
  refine Eq.trans ?_ (settleUnsent_clock s)
  unfold State.seatBoundary
  dsimp only
  split
  · exact capturedBoundary_clock _ _ _
  · exact foldl_clock _ (fun t l => (detectOnly_frame _ t l).clock) _ _

@[simp] theorem enforce_clock (s : State) (p : PendingCharter) : (s.enforce p).clock = s.clock := by
  unfold State.enforce
  dsimp only
  split
  · exact (resplit_frame s).clock
  · rfl

@[simp] theorem adoptPending_clock (s : State) : s.adoptPending.clock = s.clock := by
  unfold State.adoptPending
  split
  · rfl
  · exact enforce_clock s _

@[simp] theorem changeCondition_clock (s : State) : s.changeCondition.clock = s.clock := by
  unfold State.changeCondition; split <;> rfl

@[simp] theorem settleDefaults_clock (s : State) : s.settleDefaults.clock = s.clock := by
  unfold State.settleDefaults; split <;> rfl

@[simp] theorem decideListen_clock (s : State) (b : Bool) : (s.decideListen b).clock = s.clock := by
  refine Eq.trans ?_ (settleDefaults_clock s)
  unfold State.decideListen; dsimp only; split <;> rfl

@[simp] theorem changeMode_clock (s : State) (b : Bool) : (s.changeMode b).clock = s.clock := by
  unfold State.changeMode
  split
  · rfl
  · split <;> rfl
  · exact decideListen_clock _ _
  · split <;> rfl
  · split
    · rfl
    · dsimp only; split <;> rfl

/-- The station controller does not touch the clock at a boundary. -/
@[simp] theorem controlBoundary_clock (s : State) (b : Bool) :
    (s.controlBoundary b).clock = s.clock := by
  simp only [State.controlBoundary, changeMode_clock, changeCondition_clock, adoptPending_clock]

@[simp] theorem presentMirror_clock (s : State) (n : Option StationId) :
    (s.presentMirror n).clock = s.clock := by
  unfold State.presentMirror; dsimp only; split <;> rfl

@[simp] theorem disarmIfOwn_clock (s : State) : s.disarmIfOwn.clock = s.clock := by
  unfold State.disarmIfOwn; split <;> rfl

/-! ### Operations that keep the clock's time -/

/-- The same time base: only the discipline with its runs, the aligned flag and the step plan may
differ, so the slice, its position, both trims, the mark and the ended slices are the same. -/
def Clock.SameTime (c d : Clock) : Prop := ∃ x a g b p,
  d = { c with discipline := x, aligned := a, goodRun := g, badRun := b, plan := p }

theorem Clock.SameTime.refl (c : Clock) : c.SameTime c := ⟨_, _, _, _, _, rfl⟩

theorem Clock.SameTime.trans {c d e : Clock} : c.SameTime d → d.SameTime e → c.SameTime e := by
  rintro ⟨_, _, _, _, _, rfl⟩ ⟨_, _, _, _, _, rfl⟩; exact ⟨_, _, _, _, _, rfl⟩

theorem Clock.SameTime.applied {c d : Clock} : c.SameTime d → d.applied = c.applied := by
  rintro ⟨_, _, _, _, _, rfl⟩; rfl

/-- Following a new reference keeps the time (R6). -/
theorem followReference_sameTime (s : State) (old new : Option StationId) :
    s.clock.SameTime (s.followReference old new).clock := by
  unfold State.followReference
  dsimp only
  split
  · exact .refl _
  · split
    · exact .refl _
    · exact ⟨_, _, _, _, _, rfl⟩
  · exact ⟨_, _, _, _, _, rfl⟩
  · exact ⟨_, _, _, _, _, rfl⟩
  · split <;> exact ⟨_, _, _, _, _, rfl⟩

theorem presentReference_sameTime (s : State) (n : Option StationId) :
    s.clock.SameTime (s.presentReference n).clock := by
  unfold State.presentReference
  dsimp only
  split
  · exact .refl _
  · split
    · exact followReference_sameTime _ _ _
    · exact .refl _

/-- The selections keep the time (R68). -/
theorem recompute_sameTime (s : State) : s.clock.SameTime s.recompute.clock := by
  simp only [State.recompute, disarmIfOwn_clock, presentMirror_clock]
  exact presentReference_sameTime _ _

/-- Leaving FREE keeps the time (R7). -/
theorem endFree_sameTime (s : State) (m : Option Mode) :
    s.clock.SameTime (s.endFree m).clock := by
  unfold State.endFree
  split
  · exact ⟨_, _, _, _, _, rfl⟩
  · exact .refl _

theorem takeStep_sameTime (s : State) (cut : Slice) : s.clock.SameTime (s.takeStep cut).clock := by
  unfold State.takeStep
  split <;> exact ⟨_, _, _, _, _, rfl⟩

/-- The clock's own actions at a boundary turn to the new slice (R3, R14). -/
theorem clockBoundary_sameTime (s : State) (p : Presented) (len : Nat) :
    (s.clock.turn p.next len).SameTime (s.clockBoundary p len).clock := by
  unfold State.clockBoundary
  dsimp only
  split
  · exact takeStep_sameTime _ _
  · exact .refl _

/-- After a boundary, ordinary or step, the clock tells the time to which it turned: no block that
acts after the clock changes it. -/
theorem boundary_sameTime (s : State) (b : Bool) (p : Presented) (len : Nat) :
    (s.clock.turn p.next len).SameTime (s.boundary b p len).clock := by
  have later (u : State) (q : Option Split) (m : Option Mode) : u.clock.SameTime
      ((((u.ageOrphans.timeOutOrphans.ageEntries.losePeers).seatBoundary p q).controlBoundary
        b).recompute.endFree m).clock := by
    refine .trans (.trans ?_ (recompute_sameTime _)) (endFree_sameTime _ m)
    simp only [controlBoundary_clock, seatBoundary_clock, losePeers_clock, ageing_clock]
    exact .refl _
  exact (clockBoundary_sameTime { s with stopN := b } p len).trans (later _ _ _)

/-- A boundary copies the trim to the applied trim (R2). -/
theorem boundary_applied (s : State) (b : Bool) (p : Presented) (len : Nat) :
    (s.boundary b p len).clock.applied = s.clock.trim :=
  (boundary_sameTime s b p len).applied

/-- SLICE_BOUNDARY while RESET_N is high and no step plan stands. -/
theorem exec_sliceBoundary (stopN : Bool) (s : State) (hreset : s.resetN = true)
    (hplan : s.clock.plan = none) : exec (.sliceBoundary stopN) s =
      .next (s.boundary stopN s.ordinary (sliceLength s.clock.applied)).finish := by
  change Host.Outcome.next _ = _
  simp only [State.whenRunning, hreset, if_true, State.sliceBoundary, hplan]

/-! ### The trim update (R10) -/

/-- The quotient of R10 is truncated to 0 exactly for an error below 8 counts. -/
theorem tdiv_eight_eq_zero_iff (e : Int) : Int.tdiv e 8 = 0 ↔ e.natAbs < 8 := by
  rw [← Int.natAbs_eq_zero, Int.natAbs_tdiv]
  exact Nat.div_eq_zero_iff_lt (by decide)

theorem correction_of_large (e : Int) (h : 8 ≤ e.natAbs) : correction e = Int.tdiv e 8 := by
  have hq : Int.tdiv e 8 ≠ 0 := by rw [Ne, tdiv_eight_eq_zero_iff]; omega
  simp only [correction, if_neg hq]

/-- A small error is corrected by one count in its own direction, and 0 not at all. -/
theorem correction_of_small (e : Int) (h : e.natAbs < 8) : correction e = e.sign := by
  have hq : Int.tdiv e 8 = 0 := (tdiv_eight_eq_zero_iff e).2 h
  simp only [correction, if_pos hq]
  obtain hneg | rfl | hpos := lt_trichotomy e 0
  · rw [if_neg (by omega), if_pos hneg, Int.sign_eq_neg_one_of_neg hneg]
  · rfl
  · rw [if_pos hpos, Int.sign_eq_one_of_pos hpos]

theorem clampInt_eq_max_min (lo hi n : Int) (h : lo ≤ hi) :
    clampInt lo hi n = max lo (min hi n) := by
  unfold clampInt
  split
  · omega
  · split <;> omega

theorem newTrim_eq (t e : Int) : newTrim t e = max (-40) (min 40 (t + correction e)) :=
  clampInt_eq_max_min _ _ _ (by decide)

/-- Counting a run keeps both trims (R11). -/
theorem countGood_trims (s : State) (k : StationId) (e : Int) :
    (s.countGood k e).clock.trim = s.clock.trim ∧
    (s.countGood k e).clock.applied = s.clock.applied := by
  unfold State.countGood
  split
  · split <;> exact ⟨rfl, rfl⟩
  · exact ⟨rfl, rfl⟩

theorem countBad_trims (s : State) (k : StationId) (e : Int) :
    (s.countBad k e).clock.trim = s.clock.trim ∧
    (s.countBad k e).clock.applied = s.clock.applied := by
  unfold State.countBad
  split
  · split <;> exact ⟨rfl, rfl⟩
  · exact ⟨rfl, rfl⟩

/-- A measurement that does not enter REALIGN sets the trim and leaves the applied trim (R2,
R10). -/
theorem measureFrame_trims (s : State) (l : LeadIn) (r : StationId) (h : Slice)
    (hslice : h = (s.clock.measure l r).2) (herror : (s.clock.measure l r).1.natAbs ≤ 90) :
    (s.measureFrame l r h).clock.trim = newTrim s.clock.trim (s.clock.measure l r).1 ∧
    (s.measureFrame l r h).clock.applied = s.clock.applied := by
  have stays : ¬ (h ≠ (s.clock.measure l r).2 ∨ 90 < (s.clock.measure l r).1.natAbs) := by
    rintro (hne | hlt)
    · exact hne hslice
    · omega
  unfold State.measureFrame
  rw [if_neg stays]
  dsimp only
  split
  · exact countGood_trims _ _ _
  · exact countBad_trims _ _ _

/-- Settles O12: the correction by its three ranges, the clamp, and the boundary that copies the
trim. -/
theorem trimUpdate : Obligations.TrimUpdate := by
  refine ⟨correction_of_large, ?_, ?_, rfl, newTrim_eq, by decide, by decide, by decide, by decide,
    by decide, measureFrame_trims, ?_⟩
  · intro e hlow hhigh
    rw [correction_of_small e (by omega), Int.sign_eq_one_of_pos (by omega)]
  · intro e hlow hhigh
    rw [correction_of_small e (by omega), Int.sign_eq_neg_one_of_neg (by omega)]
  · intro stopN s hreset hplan
    refine ⟨_, exec_sliceBoundary stopN s hreset hplan, ?_⟩
    rw [finish_clock, boundary_applied]

/-! ### The time of day (R17) -/

/-- A remainder modulo a day fits the 32-bit milliseconds. -/
theorem toNat_ofInt_emod_day (n : Int) :
    ((BitVec.ofInt 32 (n % 86400000)).toNat : Int) = n % 86400000 := by
  rw [BitVec.toNat_ofInt]
  omega

/-- The slice before another is at difference -1, also across the wrap of the index. -/
theorem sliceDiff_pred (e : Slice) : sliceDiff (e - 1) e = -1 := by
  have h : e - 1 - e = (-1 : Slice) := by bv_omega
  unfold sliceDiff
  rw [h]
  decide

/-- Settles O15: the total carried into days, its place in an own entry, and the examples of R17. -/
theorem timeOfDayOfSlice : Obligations.TimeOfDayOfSlice := by
  refine ⟨fun m s => ⟨toNat_ofInt_emod_day _, rfl⟩, ?_, ?_, fun _ _ _ _ _ => rfl, by decide,
    by decide, by decide, by decide, ?_⟩
  · intro c s hmark
    simp only [Clock.timeOfDay, hmark]
  · intro c m s hmark
    simp only [Clock.timeOfDay, hmark]
  · intro e
    simp only [timeUnder, sliceDiff_pred]
    decide

end Sys2Proof.Machine
end

section
/-! SUPPORT. Proofs about the room link (chapter 3): what the receiver does at a frame's last byte
when the frame is rejected or a recall frame (R51, R53). -/

namespace Sys2Proof.Machine

/-- FRAME_RECEIVED while RESET_N is high and the receiver is in RECEIVING. -/
theorem exec_frameReceived (bs : List Byte) (s : State) (hreset : s.resetN = true)
    (hrx : s.link.rx = .receiving) : exec (.frameReceived bs) s = .next (s.receive bs) := by
  change Host.Outcome.next _ = _
  simp only [State.whenRunning, hreset, if_true, State.frameReceived, hrx]

/-- A rejected frame is counted and changes the link alone (R51). -/
theorem receive_of_rejected {bs : List Byte} {s : State}
    (hjudged : judgeFrame s.control.id bs = .rejected) :
    s.receive bs = s.withLink s.link.reject := by
  simp only [State.receive, hjudged]

/-- A recall frame sets H and changes the link alone: neither its items nor its lead-in is used, and
no grant of the store follows (R53). -/
theorem receive_of_recallFrame {bs : List Byte} {s : State} {k : StationId}
    (hjudged : judgeFrame s.control.id bs = .recallFrame k) :
    s.receive bs = s.withLink { s.link.hunt with lastHolder := k } := by
  simp only [State.receive, hjudged]
  rfl

/-- Settles O49: in RECEIVING the frame goes to its judgment, and each of the two judgments replaces
the link alone. -/
theorem recallFrameReceived : Obligations.RecallFrameReceived := by
  intro bs s hreset hrx
  rw [exec_frameReceived bs s hreset hrx]
  constructor
  · intro k hrecall
    rw [receive_of_recallFrame hrecall]
    rfl
  · intro hrejected
    rw [receive_of_rejected hrejected]
    rfl

end Sys2Proof.Machine
end

section
/-! SUPPORT. Proofs about the requests a CONSOLE peer makes of the station (chapter 9): a PROBE that is
taken and the notice it raises (R171, R172, R174). -/

namespace Sys2Proof.Machine

/-! ### A notice and the queue (R174) -/

/-- With room in the queue a notice joins the tail. -/
theorem NoticeQueue.join_of_room (inFlight : Bool) {q : NoticeQueue} (n : Notice)
    (hroom : q.entries.length < 64) :
    q.join inFlight n = { q with entries := q.entries ++ [n] } :=
  if_pos hroom

/-- Into a full queue no notice goes: it is counted, and also since assembly while a window frame is
in flight. -/
theorem NoticeQueue.join_of_full (inFlight : Bool) {q : NoticeQueue} (n : Notice)
    (hfull : 64 ≤ q.entries.length) :
    q.join inFlight n = { q with
      dropped := satSucc 255 q.dropped
      droppedSince := if inFlight then satSucc 255 q.droppedSince else q.droppedSince } :=
  if_neg (Nat.not_lt.mpr hfull)

/-- Where nothing was raised before, one notice raised and settled changes the queue alone. -/
theorem settleNotices_raise {s : State} (hraised : s.raised = []) (b : Raiser) (kind : NoticeKind)
    (subject : Nat) (detail : Half) :
    (s.raise b kind subject detail).settleNotices =
      { s with notices := s.notices.join s.windowInFlight
                { kind := kind, slice := s.clock.index, subject := byte subject, detail := detail } } := by
  have hone := raise_raised s b kind subject detail
  rw [hraised, List.nil_append] at hone
  rw [settleNotices_one _ _ hone, ← hraised]
  rfl

/-! ### PROBE -/

/-- A peer other than this station is a CONSOLE peer when its entry in the roster's table says so. -/
theorem fromConsole_of_kind {s : State} {k : StationId} (hother : k ≠ s.control.id)
    (hconsole : (look s.roster.entries k).kind = some .console) : s.fromConsole k = true := by
  have hheard : s.hears k = true := decide_eq_true hother
  have hentry : s.entry k = look s.roster.entries k := if_neg hother
  simp only [State.fromConsole, hheard, hentry, hconsole, decide_true, Bool.and_self]

/-- PROBE while RESET_N is high. -/
theorem exec_probe (k : StationId) (target : Byte) (v : Half) {s : State} (hreset : s.resetN = true) :
    exec (.probe k target v) s = .next (s.takeProbe k target v).settleNotices :=
  congrArg Host.Outcome.next (if_pos hreset)

/-- A PROBE that is taken (R171) raises TEST. -/
theorem takeProbe_of_taken {s : State} {k : StationId} {target : Byte} (v : Half)
    (hconsole : s.fromConsole k = true) (hactive : s.active = true)
    (htarget : s.targeted target = true) :
    s.takeProbe k target v = s.raise .control .test k.val v :=
  if_pos ⟨hconsole, hactive, htarget⟩

/-- Settles O26: the probe is taken, its TEST is the only notice raised, and the queue has room for it
or is full. -/
theorem probeAnswered : Obligations.ProbeAnswered := by
  intro k target v s hreset hother hkind hactive htarget hraised
  have hconsole : s.fromConsole k = true := fromConsole_of_kind hother hkind
  have hours : s.targeted target = true := decide_eq_true htarget
  rw [exec_probe k target v hreset, takeProbe_of_taken v hconsole hactive hours,
    settleNotices_raise hraised]
  constructor
  · intro hroom
    rw [NoticeQueue.join_of_room _ _ hroom]
  · intro hfull
    rw [NoticeQueue.join_of_full _ _ hfull]
    simp only [State.windowInFlight, decide_eq_true_eq, satSucc]

end Sys2Proof.Machine
end

section
/-! SUPPORT. Proofs about the layouts on the line (chapter 11): a 32-bit field written and read
(R181), the CRC-32 at a frame's end and what the receiver makes of it (R182, R51), and the digest
under which a first charter comes into force (R166, R168). -/

namespace Sys2Proof.Machine

/-! ### 32-bit fields (R181) -/

/-- The bits from `n` on joined above the lowest `n` bits are the bits as they stood. -/
theorem ushiftRight_append_setWidth {w : Nat} (m n : Nat) (x : BitVec w) :
    (x >>> n).setWidth m ++ x.setWidth n = x.setWidth (m + n) := by
  refine BitVec.eq_of_getLsbD_eq fun i hi => ?_
  rw [BitVec.getLsbD_append]
  by_cases hlow : i < n
  · simp only [hlow, hi, if_true, BitVec.getLsbD_setWidth, decide_true, Bool.true_and]
  · have hhigh : i - n < m := by omega
    have hplace : n + (i - n) = i := by omega
    simp only [hlow, hhigh, hi, hplace, if_false, BitVec.getLsbD_setWidth, decide_true,
      Bool.true_and, BitVec.getLsbD_ushiftRight]

/-- A 32-bit field reads back as it was written. -/
@[simp] theorem word32_le32 (x : Word) : word32 (le32 x) 0 = x :=
  calc word32 (le32 x) 0
    _ = ((x >>> 16 >>> 8).setWidth 8 ++ (x >>> 16).setWidth 8)
        ++ ((x >>> 8).setWidth 8 ++ x.setWidth 8) := by
      rw [← BitVec.shiftRight_add]; rfl
    _ = (x >>> 16).setWidth 16 ++ x.setWidth 16 := by
      rw [ushiftRight_append_setWidth, ushiftRight_append_setWidth]
    _ = x.setWidth 32 := ushiftRight_append_setWidth 16 16 x
    _ = x := BitVec.setWidth_eq x

@[simp] theorem le32_length (x : Word) : (le32 x).length = 4 := rfl

/-! ### The steps of the CRC-32 (R182) -/

/-- Where the register's low bit is the data bit, a bit step only shifts. -/
theorem crc32Bit_of_eq {reg : Word} {bit : Bool} (heq : reg.getLsbD 0 = bit) :
    crc32Bit reg bit = reg >>> 1 :=
  if_pos (beq_iff_eq.mpr heq)

/-- Where the two bits differ, the polynomial goes into the shifted register. -/
theorem crc32Bit_of_ne {reg : Word} {bit : Bool} (hne : reg.getLsbD 0 ≠ bit) :
    crc32Bit reg bit = (reg >>> 1) ^^^ 0xEDB88320#32 :=
  if_neg fun heq => hne (beq_iff_eq.mp heq)

theorem crc32_digits :
    crc32 [0x31, 0x32, 0x33, 0x34, 0x35, 0x36, 0x37, 0x38, 0x39] = 0xCBF43926#32 := by
  decide +kernel

/-! ### The receiver's comparison (R182, R51) -/

/-- Bytes followed by their own CRC-32 pass the receiver's comparison. -/
theorem crcGood_append_crc32 (proper : List Byte) :
    crcGood (proper ++ le32 (crc32 proper)) = true := by
  have hlen : (proper ++ le32 (crc32 proper)).length - 4 = proper.length := by
    rw [List.length_append, le32_length, Nat.add_sub_cancel]
  rw [crcGood, hlen, List.take_left, List.drop_left, word32_le32, decide_eq_true rfl]

theorem readWindow_of_crcBad {bs : List Byte} (hbad : crcGood bs = false) :
    readWindow bs = none :=
  if_pos (.inr (.inr (.inl hbad)))

theorem readRecallFrame_of_crcBad {bs : List Byte} (hbad : crcGood bs = false) :
    readRecallFrame bs = none :=
  if_pos (.inr (.inr (.inl hbad)))

/-- A frame whose CRC-32 does not compare is rejected, whatever its frame kind (R51). -/
theorem judgeFrame_of_crcBad (id : StationId) {bs : List Byte} (hbad : crcGood bs = false) :
    judgeFrame id bs = .rejected := by
  unfold judgeFrame
  split
  · rw [readWindow_of_crcBad hbad]
  · split
    · rw [readRecallFrame_of_crcBad hbad]
    · rfl

/-! ### The digest of a charter adopted in LISTEN (R166, R168) -/

theorem OnlyStorage.control {s t : State} : OnlyStorage s t → t.control = s.control := by
  rintro ⟨_, _, _, _, rfl⟩; rfl
theorem OnlySpans.control {s t : State} : OnlySpans s t → t.control = s.control := by
  rintro ⟨_, _, rfl⟩; rfl
theorem OnlySelections.digest {s t : State} :
    OnlySelections s t → t.control.digest = s.control.digest := by
  rintro ⟨_, _, _, _, _, _, rfl⟩; rfl

/-- The station controller's fields once a charter is in force (R168, R169). -/
theorem enforce_control (s : State) (p : PendingCharter) :
    (s.enforce p).control = { s.control with
      status := .adopted, charter := p.charter, digest := p.digest, pendingCharter := none } := by
  unfold State.enforce
  dsimp only
  split
  · rw [← (resplit_frame s).control]
    rfl
  · rfl

/-- Neither the detectors' settings nor the selections change the digest that came into force. -/
theorem adoptNow_digest (s : State) (p : PendingCharter) :
    (s.adoptNow p).control.digest = p.digest := by
  have hset : ((s.enforce p).settingsFrom p.charter).control.digest = p.digest := by
    rw [(settingsFrom_frame _ _).control, enforce_control]
  unfold State.adoptNow
  dsimp only
  split
  · exact (recompute_frame _).digest.trans hset
  · exact hset

/-- A station in LISTEN with no charter settled adopts the first one in range at once (R167). -/
theorem judgeCharter_of_unsettled {s : State} (p : PendingCharter)
    (hmode : s.control.mode = some .listen) (hstatus : s.control.status = .unsettled) :
    s.judgeCharter p = s.adoptNow p :=
  if_pos ⟨hmode, hstatus⟩

theorem listening_of_listen {s : State} (hmode : s.control.mode = some .listen) :
    s.listening = true := by
  simp only [State.listening, hmode, decide_true, Bool.or_true]

/-- A CONSOLE peer's body in range goes to its judgment with its CRC-32 as digest (R166, R167). -/
theorem takeCharter_of_ok {s : State} {k : StationId} {body : List Byte} {c : Charter}
    (hconsole : s.fromConsole k = true) (hlistening : s.listening = true)
    (hlen : body.length = 272) (hread : readCharter body = .ok c) :
    s.takeCharter k body = s.judgeCharter { charter := c, digest := crc32 body, sender := k } := by
  rw [State.takeCharter, if_pos ⟨hconsole, hlistening, hlen⟩, hread]

/-- CHARTER while RESET_N is high. -/
theorem exec_charter (k : StationId) (body : List Byte) {s : State} (hreset : s.resetN = true) :
    exec (.charter k body) s = .next (s.takeCharter k body).settleNotices :=
  congrArg Host.Outcome.next (if_pos hreset)

/-- Settles O53: the clauses in order are the computation, its place on the line, the receiver's
comparison and the digests. -/
theorem frameCheck : Obligations.FrameCheck := by
  refine ⟨fun _ => rfl, fun _ _ => rfl, fun _ _ => ⟨crc32Bit_of_eq, crc32Bit_of_ne⟩, crc32_digits,
    fun _ => rfl, fun _ => ⟨_, _, _, _, _, rfl⟩, fun _ => ⟨_, rfl⟩, crcGood_append_crc32,
    fun id _ => judgeFrame_of_crcBad id, rfl, ?_⟩
  intro k body c s hreset hother hkind hlen hread hmode hstatus
  refine ⟨_, exec_charter k body hreset, ?_⟩
  have hconsole : s.fromConsole k = true := fromConsole_of_kind hother hkind
  rw [settleNotices_control, takeCharter_of_ok hconsole (listening_of_listen hmode) hlen hread,
    judgeCharter_of_unsettled _ hmode hstatus, adoptNow_digest]

end Sys2Proof.Machine
end


section
/-! SUPPORT. Proofs about a step as a whole: what it executes, reset, and what a step can do to the
bytes of the DRAM (log 22). -/

namespace Sys2Proof.Machine

/-! ### Steps (log 4) -/

theorem step_of_empty {s : State} (hempty : s.pending = []) : step s = .next (s.countsPass 1) := by
  rw [step, hempty]

theorem step_of_front {s : State} {c : Instr} {rest : List Instr} (hfront : s.pending = c :: rest) :
    step s = exec c { s with pending := rest } := by
  rw [step, hfront]

/-- A property that one count, the taking of the front command and every command keep is kept by every
step. -/
theorem step_keeps {P : State → Prop} (hcount : ∀ s, P s → P (s.countsPass 1))
    (htaken : ∀ s rest, P s → P { s with pending := rest })
    (hexec : ∀ c s t, P s → exec c s = .next t → P t) {s t : State} (hs : P s)
    (hstep : step s = .next t) : P t := by
  cases hp : s.pending with
  | nil =>
    rw [step_of_empty hp] at hstep
    exact Host.Outcome.next.inj hstep ▸ hcount s hs
  | cons c rest =>
    rw [step_of_front hp] at hstep
    exact hexec c _ t (htaken s rest hs) hstep

/-- A property that a command's effect has while RESET_N is high, and the state itself has, is one of the
state after the command. -/
theorem whenRunning_keeps {P : State → Prop} {s : State} {f : State → State} (hs : P s)
    (hf : s.resetN = true → P (f s)) : P (s.whenRunning f) := by
  unfold State.whenRunning
  split
  · next hreset => exact hf hreset
  · exact hs

theorem whenRunning_high {s : State} (hreset : s.resetN = true) (f : State → State) :
    s.whenRunning f = f s :=
  if_pos hreset

theorem whenRunning_low {s : State} (hreset : s.resetN = false) (f : State → State) :
    s.whenRunning f = s :=
  if_neg (by rw [hreset]; exact Bool.false_ne_true)

/-- Settles O1. -/
theorem stepRunsFrontCommand : Obligations.StepRunsFrontCommand :=
  fun _ _ _ hfront => step_of_front hfront

/-- Settles O2: one count, whose clock and store read as their `pass`. -/
theorem emptyQueuePassesOneCount : Obligations.EmptyQueuePassesOneCount := by
  intro s hempty
  refine ⟨_, step_of_empty hempty, fun hlow => if_neg (by simp [hlow]), fun hhigh => ?_⟩
  have hpassed : s.countsPass 1 = { s with clock := s.clock.pass 1, store := s.store.pass 1 } :=
    if_pos hhigh
  rw [hpassed]
  refine ⟨?_, ?_, rfl⟩
  · simp only [Clock.pass]
    split <;> omega
  · simp only [Store.pass, Config.pauseCounts]
    by_cases hpause : s.store.phase = .pause
    · simp only [hpause, if_true, true_and]
      split <;> omega
    · simp only [hpause, if_false, false_and]

/-! ### Reset (R159) -/

theorem look_replicate {α : Type} {n : Nat} (x : α) (k : Fin n) : look (Vector.replicate n x) k = x := by
  simp [look]

/-- With no notice held ALERT_N is high (R177). -/
theorem alertN_of_none {s : State} (hnone : s.notices.entries = []) : s.alertN = true := by
  simp [State.alertN, hnone]

/-- Settles O3: the state is that of State.fresh, and its tables hold one value throughout. -/
theorem resetAssertedDiscardsEverything : Obligations.ResetAssertedDiscardsEverything := by
  intro s
  have roster (k : StationId) : look Roster.reset.entries k = RosterEntry.reset := look_replicate _ k
  have marks (k : StationId) : look Rings.reset.marks k = none := look_replicate _ k
  have accs (l : Lane) : look (SeatCapture.reset s.seat.laneCount).accs l = Accumulator.cleared :=
    look_replicate _ l
  exact ⟨s.assertReset, rfl, rfl, rfl, rfl, rfl, rfl, rfl, roster, rfl, rfl, rfl, rfl, rfl, rfl, rfl, rfl,
    marks, rfl, rfl, rfl, rfl, rfl, rfl, rfl, rfl, rfl, rfl, rfl, rfl, alertN_of_none rfl, rfl, rfl, rfl,
    rfl, accs, rfl, rfl, rfl, rfl, rfl⟩

/-- Settles O58. -/
theorem resetWithinBounds : Obligations.ResetWithinBounds := ⟨rfl, by decide⟩

/-- RESET_RELEASED from a low RESET_N. -/
theorem exec_resetReleased_low (ids : BitVec 4) (scs : BitVec 3) (szs : BitVec 2) {s : State}
    (hlow : s.resetN = false) : exec (.resetReleased ids scs szs) s = .next (s.releaseReset ids scs szs) :=
  congrArg Host.Outcome.next (if_neg (by simp [hlow]))

theorem exec_resetReleased_high (ids : BitVec 4) (scs : BitVec 3) (szs : BitVec 2) {s : State}
    (hhigh : s.resetN = true) : exec (.resetReleased ids scs szs) s = .next s :=
  congrArg Host.Outcome.next (if_pos hhigh)

/-- After reset release every entry of the roster is that of R58: the table's entries and, in START, the
station's own. -/
theorem releaseReset_entry (s : State) (ids : BitVec 4) (scs : BitVec 3) (szs : BitVec 2) (k : StationId) :
    (s.releaseReset ids scs szs).entry k = RosterEntry.reset := by
  unfold State.entry
  split
  · rfl
  · exact look_replicate _ k

/-- Settles O4: the clauses in order are the fields after a release, State.reset, and the release
without effect. -/
theorem resetReleasedGivesResetValues : Obligations.ResetReleasedGivesResetValues := by
  refine ⟨fun ids scs szs s hlow => ⟨_, exec_resetReleased_low ids scs szs hlow, ?_⟩, ?_,
    fun ids scs szs s hhigh => exec_resetReleased_high ids scs szs hhigh⟩
  · have faults (l : Lane) : look (s.releaseReset ids scs szs).seat.faults l = LaneFault.reset :=
      look_replicate _ l
    have detectors (l : Lane) : look (s.releaseReset ids scs szs).spans.detectors l = .quiet :=
      look_replicate _ l
    have marks (k : StationId) : look (s.releaseReset ids scs szs).rings.marks k = none :=
      look_replicate _ k
    have armed (k : StationId) : look (s.releaseReset ids scs szs).rings.armed k = true :=
      look_replicate _ k
    refine ⟨rfl, rfl, rfl, rfl, rfl, rfl, rfl, rfl, rfl, rfl, rfl, rfl, rfl, rfl, rfl, ?_⟩
    refine ⟨fun l => by rw [faults l]; exact ⟨rfl, rfl, rfl, rfl⟩, rfl, rfl, rfl, rfl, rfl, rfl, rfl, rfl, rfl, rfl, ?_⟩
    refine ⟨fun k => by
        rw [releaseReset_entry]; exact ⟨rfl, rfl, rfl, rfl, rfl, rfl, rfl, rfl, rfl, rfl⟩,
      rfl, rfl, detectors, rfl, rfl, rfl, rfl, rfl, rfl, rfl, rfl, rfl, rfl,
      fun k => ⟨marks k, armed k⟩, rfl, rfl, ?_⟩
    refine ⟨rfl, rfl, rfl, rfl, rfl, rfl, rfl, rfl, rfl, rfl, rfl, rfl, rfl, rfl, ?_⟩
    refine ⟨rfl, rfl, rfl, rfl, rfl, rfl, rfl, rfl, rfl, rfl, rfl, rfl, rfl, rfl, rfl, rfl, rfl, rfl, rfl, rfl,
      rfl, ?_⟩
    exact ⟨rfl, rfl, rfl, rfl, alertN_of_none rfl, rfl, rfl, rfl, rfl⟩
  · intro s hlow hstop hwait huses hpending
    rw [exec_resetReleased_low 0 0 0 hlow]
    simp only [State.releaseReset, hstop, hwait, huses, hpending]
    rfl

/-- Settles O5: with no operation in progress each of the other commands is held by `whenRunning`. -/
theorem heldWhileResetIsLow : Obligations.HeldWhileResetIsLow := by
  intro c s hlow hop hasserted hreleased hraised hwait
  have held (f : State → State) : Host.Outcome.next (φ := Fault) (ρ := Refusal) (s.whenRunning f) = .next s :=
    congrArg _ (whenRunning_low hlow f)
  cases c with
  | resetAsserted => exact absurd rfl hasserted
  | resetReleased a b d => exact absurd rfl (hreleased a b d)
  | stWaitRaised => exact absurd rfl hraised
  | stWaitReleased => exact absurd rfl hwait
  | slotWriteEnd => simp only [exec, execSlotWriteEnd, hop]
  | slotReadEnd d => simp only [exec, execSlotReadEnd, hop]
  | leadInFound wait ago =>
    have hpass : s.countsPass wait = s := if_neg (by simp [hlow])
    simp only [exec, execLeadInFound, hpass, whenRunning_low hlow]
  | _ => exact held _

end Sys2Proof.Machine
end


section
/-! SUPPORT. What a command can do to the bytes of the DRAM (log 22) and to the notices raised (R174). -/

namespace Sys2Proof.Machine

/-! ### The ends of commands -/

@[simp] theorem finish_dram (s : State) : s.finish.dram = s.dram := by
  obtain ⟨_, _, _, _, _, h⟩ := finish_frame s
  rw [h]

@[simp] theorem finish_raised (s : State) : s.finish.raised = [] := settleNotices_raised _

/-- Settling changes the notice queue, the free values' counter and the notices raised alone. -/
theorem settleNotices_frame (s : State) :
    ∃ n f, s.settleNotices = { s with notices := n, freeUses := f, raised := [] } := ⟨_, _, rfl⟩

/-! ### Commands that settle no notice -/

theorem startRecall_frame (s : State) : ∃ a b, s.startRecall = { s with server := a, link := b } := by
  unfold State.startRecall
  dsimp only
  split <;> exact ⟨_, _, rfl⟩

theorem recallWindow_frame (s : State) : ∃ a b, s.recallWindow = { s with server := a, link := b } := by
  unfold State.recallWindow
  split
  · split
    · exact startRecall_frame s
    · exact ⟨_, _, rfl⟩
  · exact ⟨_, _, rfl⟩
  · exact ⟨_, _, rfl⟩

theorem recallFrameSent_frame (s : State) :
    ∃ a b, s.recallFrameSent = { s with server := a, link := b } := by
  unfold State.recallFrameSent
  split <;> exact ⟨_, _, rfl⟩

/-- Only the link differs. -/
def OnlyLink (s t : State) : Prop := ∃ a, t = { s with link := a }

theorem OnlyLink.blocks {s t : State} : OnlyLink s t → OnlyBlocks s t := by
  rintro ⟨_, rfl⟩; exact ⟨_, _, _, _, _, _, _, _, _, _, rfl⟩

theorem leadInFound_frame (s : State) (ago : Nat) : OnlyLink s (s.leadInFound ago) := by
  unfold State.leadInFound
  split
  · split <;> exact ⟨_, rfl⟩
  all_goals exact ⟨_, rfl⟩

theorem headerReceived_frame (s : State) (header : List Byte) : OnlyLink s (s.headerReceived header) := by
  unfold State.headerReceived
  split
  · split <;> exact ⟨_, rfl⟩
  all_goals exact ⟨_, rfl⟩

theorem frameCut_frame (s : State) : OnlyLink s s.frameCut := by
  unfold State.frameCut
  split <;> exact ⟨_, rfl⟩

/-! ### What a frame's last byte and the station's own windows come to -/

/-- An accepted window frame is another station's (R51). -/
theorem sender_other {id : StationId} {bs : List Byte} {f : WindowFrame}
    (hjudged : judgeFrame id bs = .windowFrame f) : f.header.sender ≠ id := by
  intro hown
  unfold judgeFrame at hjudged
  split at hjudged
  · split at hjudged
    · cases hjudged
    · split at hjudged
      · cases hjudged
      · next hne => exact hne (Verdict.windowFrame.inj hjudged ▸ hown)
  · split at hjudged
    · split at hjudged
      · cases hjudged
      · split at hjudged <;> cases hjudged
    · cases hjudged

/-- A frame's last byte has no effect, or a link's alone, or that of an accepted window frame of another
station (R51 to R53). -/
theorem frameReceived_cases (s : State) (bs : List Byte) :
    OnlyLink s (s.frameReceived bs) ∨ ∃ f, f.header.sender ≠ s.control.id ∧
      s.frameReceived bs = ((s.withLink s.link.hunt).acceptWindow f s.link.leadIn).finish := by
  unfold State.frameReceived
  split
  · cases hj : judgeFrame s.control.id bs with
    | rejected => exact .inl ⟨_, receive_of_rejected hj⟩
    | recallFrame k => exact .inl ⟨_, receive_of_recallFrame hj⟩
    | windowFrame f =>
      exact .inr ⟨f, sender_other hj, by simp only [State.receive, hj]⟩
  · exact .inl ⟨_, rfl⟩
  · exact .inl ⟨_, rfl⟩

theorem startWindow_dram (s : State) : s.startWindow.dram = s.dram := by
  unfold State.startWindow
  split
  · rfl
  · exact (settleUnsent_frame s).dram

theorem ownWindow_dram (s : State) : s.ownWindow.dram = s.dram := by
  unfold State.ownWindow
  split
  · rw [finish_dram, startWindow_dram]
  · rfl
  · rfl

theorem windowSent_dram (s : State) (page : Option Slice) (n : Nat) (plan : List PlanItem)
    (claim : Bool) : (s.windowSent page n plan claim).dram = s.dram := by
  unfold State.windowSent
  dsimp only
  split <;> split <;> rfl

theorem ownFrameSent_dram (s : State) : s.ownFrameSent.dram = s.dram := by
  unfold State.ownFrameSent
  split
  · rw [finish_dram, windowSent_dram]
  · rfl
  · rfl

theorem windowAborted_dram (s : State) (page : Option Slice) (n : Nat) :
    (s.windowAborted page n).dram = s.dram := by
  unfold State.windowAborted
  dsimp only
  split
  · exact (settleUnsent_frame s).dram
  · rfl

theorem ownFrameAborted_dram (s : State) (read : List LineLevel) :
    (s.ownFrameAborted read).dram = s.dram := by
  unfold State.ownFrameAborted
  split
  · split
    · rfl
    · rw [finish_dram, windowAborted_dram]
  · rfl
  · rfl

theorem recallFrameAborted_dram (s : State) (read : List LineLevel) :
    (s.recallFrameAborted read).dram = s.dram := by
  unfold State.recallFrameAborted
  split
  · split <;> rfl
  · rfl
  · rfl

theorem frameReceived_dram (s : State) (bs : List Byte) : (s.frameReceived bs).dram = s.dram := by
  obtain hlink | ⟨f, -, hf⟩ := frameReceived_cases s bs
  · exact hlink.blocks.dram
  · rw [hf, finish_dram, (acceptWindow_frame _ _ _).dram]
    rfl

/-! ### Boundaries, items and the store -/

theorem sliceBoundary_dram (s : State) (b : Bool) : (s.sliceBoundary b).dram = s.dram := by
  unfold State.sliceBoundary
  split
  · rfl
  · rw [finish_dram, (boundary_frame _ _ _ _).dram]

theorem stepBoundary_dram (s : State) (b : Bool) : (s.stepBoundary b).dram = s.dram := by
  unfold State.stepBoundary
  split
  · rfl
  · rw [finish_dram, (boundary_frame _ _ _ _).dram]

theorem losses_dram (s : State) : s.losses.dram = s.dram := by
  rw [State.losses, finish_dram, (recompute_frame _).blocks.dram, (losePeers_frame s).dram]

theorem listenEnds_dram (s : State) (b : Bool) : (s.listenEnds b).dram = s.dram := by
  unfold State.listenEnds
  split
  · rw [settleNotices_dram, (beginSlice_frame _).dram, (endFree_frame _ _).dram,
      (recompute_frame _).blocks.dram, (decideListen_frame _ _).dram]
  · rfl

theorem openItem_dram (s : State) (k : StationId) (i : SpanItem) : (s.openItem k i).dram = s.dram := by
  unfold State.openItem
  split
  · rw [settleNotices_dram, (applyOpen_frame _ _ _).blocks.dram]
  · rfl

theorem closeItem_dram (s : State) (k : StationId) (i : SpanItem) : (s.closeItem k i).dram = s.dram := by
  unfold State.closeItem
  split
  · rw [settleNotices_dram, (applyClose_frame _ _ _).blocks.dram]
  · rfl

theorem spanBeacon_dram (s : State) (k : StationId) (es : List SpanItem) :
    (s.spanBeacon k es).dram = s.dram := by
  unfold State.spanBeacon
  split
  · rw [settleNotices_dram, (applyBeacon_frame _ _ _).blocks.dram]
  · rfl

theorem enterReady_frame (s : State) :
    ∃ a c r, s.enterReady = { s with store := a, control := c, raised := r } := ⟨_, _, _, rfl⟩

theorem refreshEnd_frame (s : State) :
    ∃ a c r, s.refreshEnd = { s with store := a, control := c, raised := r } := by
  unfold State.refreshEnd
  dsimp only
  split
  · split
    · split <;> exact ⟨_, _, _, rfl⟩
    · exact ⟨_, _, _, rfl⟩
  · exact ⟨_, _, _, rfl⟩

theorem pauseEnd_frame (s : State) : ∃ a, s.pauseEnd = { s with store := a } := by
  unfold State.pauseEnd
  split <;> exact ⟨_, rfl⟩

theorem slotWritten_dram (s : State) (kind : PageKind) (page : Nat) (lane : Lane) (bytes : List Byte)
    (live : Bool) : (s.slotWritten kind page lane bytes live).dram =
      Memory.writeBytes s.dram (slotAddress page lane) bytes :=
  (advanceWrite_frame _ _ _).blocks.dram

/-- What a command that has a next state does to the DRAM: nothing, but for reset, which loses its
contents, and the end of a slot write, which writes the slot's bytes. -/
theorem exec_dram {c : Instr} {s t : State} (ht : exec c s = .next t) :
    t.dram = s.dram ∨ t.dram = [] ∨ ∃ a bs, t.dram = Memory.writeBytes s.dram a bs := by
  have run {f : State → State} {u : State} (hu : Host.Outcome.next (φ := Fault) (ρ := Refusal)
      (u.whenRunning f) = .next t) (hsame : u.dram = s.dram) (hf : (f u).dram = u.dram) :
      t.dram = s.dram ∨ t.dram = [] ∨ ∃ a bs, t.dram = Memory.writeBytes s.dram a bs := by
    cases Host.Outcome.next.inj hu
    exact .inl ((whenRunning_keeps (P := fun v => v.dram = u.dram) rfl fun _ => hf).trans hsame)
  have same : s.dram = s.dram := rfl
  cases c with
  | resetAsserted => cases ht; exact .inr (.inl rfl)
  | resetReleased a b d =>
    cases ht
    split
    · exact .inl rfl
    · exact .inr (.inl rfl)
  | samplePeriodEnd lines => exact run ht same rfl
  | sliceBoundary b => exact run ht same (sliceBoundary_dram s b)
  | stepBoundary b => exact run ht same (stepBoundary_dram s b)
  | peerLost => exact run ht same (losses_dram s)
  | orphanTimeout => exact run ht same rfl
  | listenEnd b => exact run ht same (listenEnds_dram s b)
  | ownWindowStart => exact run ht same (ownWindow_dram s)
  | windowFrameSent => exact run ht same (ownFrameSent_dram s)
  | windowFrameAborted read => exact run ht same (ownFrameAborted_dram s read)
  | recallWindowStart =>
    obtain ⟨_, _, h⟩ := recallWindow_frame s
    exact run ht same (by rw [h])
  | recallFrameSent =>
    obtain ⟨_, _, h⟩ := recallFrameSent_frame s
    exact run ht same (by rw [h])
  | recallFrameAborted read => exact run ht same (recallFrameAborted_dram s read)
  | leadInFound wait ago =>
    refine run ht ?_ (leadInFound_frame _ ago).blocks.dram
    unfold State.countsPass
    split <;> rfl
  | frameHeaderReceived header => exact run ht same (headerReceived_frame s header).blocks.dram
  | frameCutBySilence => exact run ht same (frameCut_frame s).blocks.dram
  | frameReceived bs => exact run ht same (frameReceived_dram s bs)
  | openItem k i => exact run ht same (openItem_dram s k i)
  | closeItem k i => exact run ht same (closeItem_dram s k i)
  | spanBeacon k es => exact run ht same (spanBeacon_dram s k es)
  | charter k body => exact run ht same (takeRequest_frame s k (.charter body)).dram
  | condition k code => exact run ht same (takeRequest_frame s k (.condition code)).dram
  | timeMark k a b d => exact run ht same (takeRequest_frame s k (.timeMark a b d)).dram
  | probe k target v => exact run ht same (takeRequest_frame s k (.probe target v)).dram
  | stop k target => exact run ht same (takeRequest_frame s k (.stop target)).dram
  | start k target => exact run ht same (takeRequest_frame s k (.start target)).dram
  | archiveMark k pairs => exact run ht same (takeRequest_frame s k (.archiveMark pairs)).dram
  | recallRequest k tag h src mask f l =>
    refine run ht same ?_
    rw [finish_dram]
    exact (takeRequest_frame s k (.recallRequest tag h src mask f l)).dram
  | stWaitRaised => cases ht; exact .inl rfl
  | stWaitReleased => exact run ht rfl (finish_dram _)
  | pauseEnd =>
    obtain ⟨_, h⟩ := pauseEnd_frame s
    exact run ht same (by rw [finish_dram, h])
  | refreshTick => exact run ht same (by rw [finish_dram, (refreshTick_frame s).blocks.dram])
  | refreshEnd =>
    obtain ⟨_, _, _, h⟩ := refreshEnd_frame s
    exact run ht same (by rw [finish_dram, h])
  | slotWriteEnd =>
    change execSlotWriteEnd s = _ at ht
    unfold execSlotWriteEnd at ht
    split at ht
    · next kind page lane bytes live _ =>
      split at ht
      · cases ht
        refine whenRunning_keeps (P := fun v => v.dram = s.dram ∨ v.dram = [] ∨
          ∃ a bs, v.dram = Memory.writeBytes s.dram a bs) (.inl rfl) fun _ => ?_
        exact .inr (.inr ⟨_, _, (finish_dram _).trans (slotWritten_dram s kind page lane bytes live)⟩)
      · cases ht
    all_goals cases ht; exact .inl rfl
  | slotReadEnd d =>
    change execSlotReadEnd d s = _ at ht
    unfold execSlotReadEnd at ht
    split at ht
    · split at ht
      · exact run ht same (finish_dram _)
      · cases ht
    all_goals cases ht; exact .inl rfl

/-- Settles O56: each of the three things a command can do to the DRAM keeps its canonical form. -/
theorem dramStaysCanonical : Obligations.DramStaysCanonical := by
  intro s t hwf hstep
  refine step_keeps (P := fun u => u.dramWf = true) (fun u hu => ?_) (fun u rest hu => hu)
    (fun c u v hu hv => ?_) hwf hstep
  · have hsame : (u.countsPass 1).dram = u.dram := by unfold State.countsPass; split <;> rfl
    rw [State.dramWf, hsame]
    exact hu
  · unfold State.dramWf
    obtain hsame | hempty | ⟨a, bs, hwritten⟩ := exec_dram hv
    · rw [hsame]; exact hu
    · rw [hempty]; rfl
    · rw [hwritten]; exact Memory.wf_writeBytes _ a bs hu

end Sys2Proof.Machine
end


section
/-! SUPPORT. Proofs about the notices (chapter 10): the order in which those raised at one instant join
the queue, ALERT_N, and that no step leaves one raised (R174, R175, R177). -/

namespace Sys2Proof.Machine

/-! ### The order in which notices join (R174) -/

/-- Taking a block's first notice leaves the others. -/
theorem takeFirst_perm {b : Raiser} {rs rest : List Raised} {n : Notice}
    (htaken : takeFirst b rs = some (n, rest)) :
    (n :: rest.map Raised.notice).Perm (rs.map Raised.notice) := by
  induction rs generalizing n rest with
  | nil => cases htaken
  | cons r rs ih =>
    rw [takeFirst] at htaken
    split at htaken
    · cases htaken
      exact .refl _
    · split at htaken
      · cases htaken
      · next m left hm =>
        cases htaken
        exact (List.Perm.swap _ _ _).trans ((ih hm).cons r.notice)

/-- Whatever the free values say, the notices that join are those raised, each once. -/
theorem mergeRaised_perm (n c : Nat) (rs : List Raised) :
    (mergeRaised n c rs).1.Perm (rs.map Raised.notice) := by
  induction n generalizing c rs with
  | zero => exact .refl _
  | succ n ih =>
    rw [mergeRaised]
    split
    · next hnone =>
      cases rs with
      | nil => exact .refl _
      | cons r rs =>
        have grows : ∀ (l : List Raised) (acc : List Raiser), acc ≠ [] → raisersOf l acc ≠ [] := by
          intro l
          induction l with
          | nil => exact fun _ h => h
          | cons x l ihl =>
            intro acc h
            refine ihl _ ?_
            split
            · exact h
            · simp
        exact absurd hnone (grows rs _ (by simp))
    · exact .refl _
    · dsimp only
      split
      · exact .refl _
      · next x rest hx => exact ((ih _ rest).cons x).trans (takeFirst_perm hx)

/-! ### Commands that settle what they raise, and commands that raise nothing -/

theorem listenEnds_raised {s : State} (b : Bool) (hs : s.raised = []) :
    (s.listenEnds b).raised = [] := by
  unfold State.listenEnds
  split
  · rfl
  · exact hs

/-- A window's start or end, a boundary and an accepted frame settle what they raise, in every case in
which they act. -/
theorem ownWindow_raised {s : State} (hs : s.raised = []) : s.ownWindow.raised = [] := by
  unfold State.ownWindow
  split <;> first | exact finish_raised _ | exact hs

theorem ownFrameSent_raised {s : State} (hs : s.raised = []) : s.ownFrameSent.raised = [] := by
  unfold State.ownFrameSent
  split <;> first | exact finish_raised _ | exact hs

theorem ownFrameAborted_raised {s : State} (read : List LineLevel) (hs : s.raised = []) :
    (s.ownFrameAborted read).raised = [] := by
  unfold State.ownFrameAborted
  split
  · split
    · exact hs
    · exact finish_raised _
  all_goals exact hs

theorem recallFrameAborted_raised {s : State} (read : List LineLevel) (hs : s.raised = []) :
    (s.recallFrameAborted read).raised = [] := by
  unfold State.recallFrameAborted
  split
  · split
    · exact hs
    · exact settleNotices_raised _
  all_goals exact hs

theorem sliceBoundary_raised {s : State} (b : Bool) (hs : s.raised = []) :
    (s.sliceBoundary b).raised = [] := by
  unfold State.sliceBoundary
  split
  · exact hs
  · exact finish_raised _

theorem stepBoundary_raised {s : State} (b : Bool) (hs : s.raised = []) :
    (s.stepBoundary b).raised = [] := by
  unfold State.stepBoundary
  split
  · exact hs
  · exact finish_raised _

theorem OnlyLink.raised {s t : State} : OnlyLink s t → t.raised = s.raised := by
  rintro ⟨_, rfl⟩; rfl

theorem frameReceived_raised {s : State} (bs : List Byte) (hs : s.raised = []) :
    (s.frameReceived bs).raised = [] := by
  obtain hlink | ⟨f, -, hf⟩ := frameReceived_cases s bs
  · exact hlink.raised.trans hs
  · rw [hf, finish_raised]

theorem openItem_raised {s : State} (k : StationId) (i : SpanItem) (hs : s.raised = []) :
    (s.openItem k i).raised = [] := by
  unfold State.openItem
  split
  · rfl
  · exact hs

theorem closeItem_raised {s : State} (k : StationId) (i : SpanItem) (hs : s.raised = []) :
    (s.closeItem k i).raised = [] := by
  unfold State.closeItem
  split
  · rfl
  · exact hs

theorem spanBeacon_raised {s : State} (k : StationId) (es : List SpanItem) (hs : s.raised = []) :
    (s.spanBeacon k es).raised = [] := by
  unfold State.spanBeacon
  split
  · rfl
  · exact hs

theorem takeCondition_frame (s : State) (k : StationId) (code : Byte) :
    ∃ c, s.takeCondition k code = { s with control := c } := by
  unfold State.takeCondition
  split
  · split <;> exact ⟨_, rfl⟩
  · exact ⟨_, rfl⟩

theorem takeStop_frame (s : State) (k : StationId) (target : Byte) :
    ∃ c, s.takeStop k target = { s with control := c } := by
  unfold State.takeStop
  split <;> exact ⟨_, rfl⟩

theorem takeStart_frame (s : State) (k : StationId) (target : Byte) :
    ∃ c, s.takeStart k target = { s with control := c } := by
  unfold State.takeStart
  split <;> exact ⟨_, rfl⟩

theorem takeTimeMark_frame (s : State) (k : StationId) (e : Slice) (d : Half) (ms : Word) :
    ∃ c, s.takeTimeMark k e d ms = { s with clock := c } := by
  unfold State.takeTimeMark
  split <;> exact ⟨_, rfl⟩

theorem takeArchiveMark_frame (s : State) (k : StationId) (pairs : List (Byte × Slice)) :
    ∃ r, s.takeArchiveMark k pairs = { s with rings := r } := by
  unfold State.takeArchiveMark
  split <;> exact ⟨_, rfl⟩

/-- No command leaves a notice raised and not joined. -/
theorem exec_raised {c : Instr} {s t : State} (hs : s.raised = []) (ht : exec c s = .next t) :
    t.raised = [] := by
  have run {f : State → State} {u : State} (hu : Host.Outcome.next (φ := Fault) (ρ := Refusal)
      (u.whenRunning f) = .next t) (hraised : u.raised = []) (hf : (f u).raised = []) :
      t.raised = [] := by
    cases Host.Outcome.next.inj hu
    exact whenRunning_keeps (P := fun v => v.raised = []) hraised fun _ => hf
  cases c with
  | resetAsserted => cases ht; rfl
  | resetReleased a b d =>
    cases ht
    split
    · exact hs
    · rfl
  | samplePeriodEnd lines => exact run ht hs hs
  | sliceBoundary b => exact run ht hs (sliceBoundary_raised b hs)
  | stepBoundary b => exact run ht hs (stepBoundary_raised b hs)
  | peerLost => exact run ht hs (finish_raised _)
  | orphanTimeout => exact run ht hs hs
  | listenEnd b => exact run ht hs (listenEnds_raised b hs)
  | ownWindowStart => exact run ht hs (ownWindow_raised hs)
  | windowFrameSent => exact run ht hs (ownFrameSent_raised hs)
  | windowFrameAborted read => exact run ht hs (ownFrameAborted_raised read hs)
  | recallWindowStart =>
    obtain ⟨_, _, h⟩ := recallWindow_frame s
    exact run ht hs (by rw [h]; exact hs)
  | recallFrameSent =>
    obtain ⟨_, _, h⟩ := recallFrameSent_frame s
    exact run ht hs (by rw [h]; exact hs)
  | recallFrameAborted read => exact run ht hs (recallFrameAborted_raised read hs)
  | leadInFound wait ago =>
    have hcounts : (s.countsPass wait).raised = [] := by
      unfold State.countsPass; split <;> exact hs
    exact run ht hcounts ((leadInFound_frame _ ago).raised.trans hcounts)
  | frameHeaderReceived header => exact run ht hs ((headerReceived_frame s header).raised.trans hs)
  | frameCutBySilence => exact run ht hs ((frameCut_frame s).raised.trans hs)
  | frameReceived bs => exact run ht hs (frameReceived_raised bs hs)
  | openItem k i => exact run ht hs (openItem_raised k i hs)
  | closeItem k i => exact run ht hs (closeItem_raised k i hs)
  | spanBeacon k es => exact run ht hs (spanBeacon_raised k es hs)
  | charter k body => exact run ht hs rfl
  | condition k code =>
    obtain ⟨_, h⟩ := takeCondition_frame s k code
    exact run ht hs (by rw [h]; exact hs)
  | timeMark k a b d =>
    obtain ⟨_, h⟩ := takeTimeMark_frame s k a b d
    exact run ht hs (by rw [h]; exact hs)
  | probe k target v => exact run ht hs rfl
  | stop k target =>
    obtain ⟨_, h⟩ := takeStop_frame s k target
    exact run ht hs (by rw [h]; exact hs)
  | start k target =>
    obtain ⟨_, h⟩ := takeStart_frame s k target
    exact run ht hs (by rw [h]; exact hs)
  | archiveMark k pairs =>
    obtain ⟨_, h⟩ := takeArchiveMark_frame s k pairs
    exact run ht hs (by rw [h]; exact hs)
  | recallRequest k tag h src mask f l => exact run ht hs (finish_raised _)
  | stWaitRaised => cases ht; exact hs
  | stWaitReleased => exact run ht hs (finish_raised _)
  | pauseEnd => exact run ht hs (finish_raised _)
  | refreshTick => exact run ht hs (finish_raised _)
  | refreshEnd => exact run ht hs (finish_raised _)
  | slotWriteEnd =>
    change execSlotWriteEnd s = _ at ht
    unfold execSlotWriteEnd at ht
    split at ht
    · split at ht
      · exact run ht hs (finish_raised _)
      · cases ht
    all_goals cases ht; exact hs
  | slotReadEnd d =>
    change execSlotReadEnd d s = _ at ht
    unfold execSlotReadEnd at ht
    split at ht
    · split at ht
      · exact run ht hs (finish_raised _)
      · cases ht
    all_goals cases ht; exact hs

/-- ALERT_N is low exactly for a held ALERT entry while RESET_N is high (R177). -/
theorem alertN_eq_false_iff (s : State) : s.alertN = false ↔
    s.resetN = true ∧ ∃ n ∈ s.notices.entries, n.kind.isAlert = true := by
  simp only [State.alertN, Bool.not_eq_false', Bool.and_eq_true, List.any_eq_true]

/-- Settles O59: the clauses in order are the order of joining, the queue, ALERT_N, the severities and
the step. -/
theorem noticesSettle : Obligations.NoticesSettle := by
  refine ⟨mergeRaised_perm, fun n c rs b h => congrArg Prod.fst (mergeRaised_one n c rs b h),
    fun s => ⟨_, mergeRaised_perm _ _ _, rfl⟩, fun _ => rfl,
    fun b q n => ⟨NoticeQueue.join_of_room b n, NoticeQueue.join_of_full b n⟩,
    alertN_eq_false_iff, fun k => by cases k <;> decide, rfl, fun s t hs hstep => ?_⟩
  refine step_keeps (P := fun u => u.raised = []) (fun u hu => ?_) (fun u rest hu => hu)
    (fun c u v hu hv => exec_raised hu hv) hs hstep
  unfold State.countsPass
  split <;> exact hu

end Sys2Proof.Machine
end


section
/-! SUPPORT. The induction over commands, said once: a property of states that the operations the
commands are made of keep is kept by every step. -/

namespace Sys2Proof.Machine

/-- A left fold keeps a property that each of its steps keeps. -/
theorem foldl_keeps {α : Type} {P : State → Prop} {f : State → α → State}
    (step : ∀ s a, P s → P (f s a)) (l : List α) {s : State} (hs : P s) : P (l.foldl f s) :=
  foldl_frame (P := fun s t => P s → P t) (fun _ => id) (fun h h' hs => h' (h hs)) f step l s hs

/-- The property is kept by each of the operations that the commands but ST_WAIT_RELEASED are made of. A
header, where one is applied, is that of another station (R51). -/
structure KeptByWork (P : State → Prop) : Prop where
  pending : ∀ s q, P s → P { s with pending := q }
  stopN : ∀ s b, P s → P { s with stopN := b }
  waitRaised : ∀ s, P s → P { s with stWait := true }
  counts : ∀ s n, P s → P (s.countsPass n)
  assertReset : ∀ s, P s → P s.assertReset
  releaseReset : ∀ s ids scs szs, P s → P (s.releaseReset ids scs szs)
  settle : ∀ s, P s → P s.settleNotices
  grant : ∀ s, P s → P s.grant
  link : ∀ s t, OnlyLink s t → P s → P t
  periodEnd : ∀ s lines, P s → P (s.periodEnd lines)
  clockBoundary : ∀ s p n, P s → P (s.clockBoundary p n)
  ageing : ∀ s, P s → P s.ageOrphans.timeOutOrphans.ageEntries.losePeers
  timeOutOrphans : ∀ s, P s → P s.timeOutOrphans
  losePeers : ∀ s, P s → P s.losePeers
  seatBoundary : ∀ s p q, P s → P (s.seatBoundary p q)
  adoptPending : ∀ s, P s → P s.adoptPending
  changeCondition : ∀ s, P s → P s.changeCondition
  changeMode : ∀ s b, P s → P (s.changeMode b)
  decideListen : ∀ s b, P s → P (s.decideListen b)
  recompute : ∀ s, P s → P s.recompute
  endFree : ∀ s m, P s → P (s.endFree m)
  beginSlice : ∀ s, P s → P s.beginSlice
  linkBoundary : ∀ s, P s → P s.linkBoundary
  startWindow : ∀ s, P s → P s.startWindow
  windowSent : ∀ s page n plan claim, P s → P (s.windowSent page n plan claim)
  windowAborted : ∀ s page n, P s → P (s.windowAborted page n)
  startRecall : ∀ s, P s → P s.startRecall
  recallSent : ∀ s, P s → P s.recallSent
  recallAborted : ∀ s n, P s → P (s.recallAborted n)
  applyHeader : ∀ s h t, h.sender ≠ s.control.id → P s → P (s.applyHeader h t)
  hearCondition : ∀ s h, P s → P (s.hearCondition h)
  clockLeadIn : ∀ s h l, P s → P (s.clockLeadIn h l)
  mirrorBlocks : ∀ s k bs, P s → P (s.mirrorBlocks k bs)
  applyOpen : ∀ s k i, P s → P (s.applyOpen k i)
  applyClose : ∀ s k i, P s → P (s.applyClose k i)
  applyBeacon : ∀ s k es, P s → P (s.applyBeacon k es)
  takeRequest : ∀ s k r, P s → P (s.takeRequest k r)
  pauseEnd : ∀ s, P s → P s.pauseEnd
  refreshTick : ∀ s, P s → P s.refreshTick
  refreshEnd : ∀ s, P s → P s.refreshEnd
  slotWritten : ∀ s kind page lane bytes live,
    s.store.op = some (.writeSlot kind page lane bytes live) → P s →
      P (s.slotWritten kind page lane bytes live)
  slotFetched : ∀ s c page damage, s.store.op = some (.readSlot c page) → P s →
    P (s.slotFetched c page damage)

namespace KeptByWork

variable {P : State → Prop}

theorem finish (kept : KeptByWork P) {s : State} (hs : P s) : P s.finish :=
  kept.settle _ (kept.grant _ hs)

theorem boundary (kept : KeptByWork P) {s : State} (b : Bool) (p : Presented) (n : Nat) (hs : P s) :
    P (s.boundary b p n) := by
  have turned := kept.clockBoundary _ p n (kept.stopN s b hs)
  have seated := kept.seatBoundary _ p (s.splitAt b p.stepped p.ended p.next) (kept.ageing _ turned)
  have controlled := kept.changeMode _ b (kept.changeCondition _ (kept.adoptPending _ seated))
  have selected := kept.endFree _ s.control.mode (kept.recompute _ controlled)
  exact kept.linkBoundary _ (kept.beginSlice _ selected)

theorem sliceBoundary (kept : KeptByWork P) {s : State} (b : Bool) (hs : P s) :
    P (s.sliceBoundary b) := by
  unfold State.sliceBoundary
  split
  · exact hs
  · exact kept.finish (kept.boundary _ _ _ hs)

theorem stepBoundary (kept : KeptByWork P) {s : State} (b : Bool) (hs : P s) :
    P (s.stepBoundary b) := by
  unfold State.stepBoundary
  split
  · exact hs
  · exact kept.finish (kept.boundary _ _ _ hs)

theorem listenEnds (kept : KeptByWork P) {s : State} (b : Bool) (hs : P s) : P (s.listenEnds b) := by
  unfold State.listenEnds
  split
  · have decided := kept.decideListen _ b (kept.stopN s b hs)
    exact kept.settle _ (kept.beginSlice _ (kept.endFree _ _ (kept.recompute _ decided)))
  · exact hs

theorem ownWindow (kept : KeptByWork P) {s : State} (hs : P s) : P s.ownWindow := by
  unfold State.ownWindow
  split
  · exact kept.finish (kept.startWindow _ hs)
  · exact hs
  · exact hs

theorem ownFrameSent (kept : KeptByWork P) {s : State} (hs : P s) : P s.ownFrameSent := by
  unfold State.ownFrameSent
  split
  · exact kept.finish (kept.windowSent _ _ _ _ _ hs)
  · exact hs
  · exact hs

theorem ownFrameAborted (kept : KeptByWork P) {s : State} (read : List LineLevel) (hs : P s) :
    P (s.ownFrameAborted read) := by
  unfold State.ownFrameAborted
  split
  · split
    · exact hs
    · exact kept.finish (kept.windowAborted _ _ _ hs)
  · exact hs
  · exact hs

theorem recallWindow (kept : KeptByWork P) {s : State} (hs : P s) : P s.recallWindow := by
  unfold State.recallWindow
  split
  · split
    · exact kept.startRecall _ hs
    · exact hs
  · exact hs
  · exact hs

theorem recallFrameSent (kept : KeptByWork P) {s : State} (hs : P s) : P s.recallFrameSent := by
  unfold State.recallFrameSent
  split
  · exact kept.recallSent _ hs
  · exact hs
  · exact hs

theorem recallFrameAborted (kept : KeptByWork P) {s : State} (read : List LineLevel) (hs : P s) :
    P (s.recallFrameAborted read) := by
  unfold State.recallFrameAborted
  split
  · split
    · exact hs
    · exact kept.settle _ (kept.recallAborted _ _ hs)
  · exact hs
  · exact hs

theorem applyItem (kept : KeptByWork P) {s : State} (k : StationId) (i : SpanItem) (hs : P s) :
    P (s.applyItem k i) := by
  unfold State.applyItem
  split
  · exact kept.applyOpen _ _ _ hs
  · exact kept.applyClose _ _ _ hs

theorem hearClaim (kept : KeptByWork P) {s : State} (h : Header) (hs : P s) : P (s.hearClaim h) := by
  unfold State.hearClaim
  split
  · exact kept.link _ _ ⟨_, rfl⟩ hs
  · exact hs

theorem acceptWindow (kept : KeptByWork P) {s : State} (f : WindowFrame) (l : Option LeadIn)
    (hother : f.header.sender ≠ s.control.id) (hs : P s) : P (s.acceptWindow f l) := by
  have heard := kept.hearCondition _ f.header (kept.applyHeader s _ (blockSlice f.blocks) hother hs)
  have staged := kept.mirrorBlocks _ f.header.sender f.blocks (kept.clockLeadIn _ f.header l heard)
  have items := foldl_keeps (fun s i h => kept.applyItem f.header.sender i h) f.spans staged
  have beacons := foldl_keeps (fun s es h => kept.applyBeacon s f.header.sender es h) f.beacons items
  have requests :=
    foldl_keeps (fun s r h => kept.takeRequest s f.header.sender r h) f.requests beacons
  exact kept.hearClaim _ requests

theorem frameReceived (kept : KeptByWork P) {s : State} (bs : List Byte) (hs : P s) :
    P (s.frameReceived bs) := by
  obtain hlink | ⟨f, hother, hf⟩ := frameReceived_cases s bs
  · exact kept.link _ _ hlink hs
  · rw [hf]
    exact kept.finish (kept.acceptWindow f _ hother (kept.link _ _ ⟨_, rfl⟩ hs))

theorem openItem (kept : KeptByWork P) {s : State} (k : StationId) (i : SpanItem) (hs : P s) :
    P (s.openItem k i) := by
  unfold State.openItem
  split
  · exact kept.settle _ (kept.applyOpen _ _ _ hs)
  · exact hs

theorem closeItem (kept : KeptByWork P) {s : State} (k : StationId) (i : SpanItem) (hs : P s) :
    P (s.closeItem k i) := by
  unfold State.closeItem
  split
  · exact kept.settle _ (kept.applyClose _ _ _ hs)
  · exact hs

theorem spanBeacon (kept : KeptByWork P) {s : State} (k : StationId) (es : List SpanItem)
    (hs : P s) : P (s.spanBeacon k es) := by
  unfold State.spanBeacon
  split
  · exact kept.settle _ (kept.applyBeacon _ _ _ hs)
  · exact hs

/-- Every command but ST_WAIT_RELEASED that has a next state keeps the property. -/
theorem exec (kept : KeptByWork P) {c : Instr} {s t : State} (hc : c ≠ .stWaitReleased) (hs : P s)
    (ht : Machine.exec c s = .next t) : P t := by
  have run {f : State → State} {u : State} (hu : Host.Outcome.next (φ := Fault) (ρ := Refusal)
      (u.whenRunning f) = .next t) (hbefore : P u) (hf : P (f u)) : P t := by
    cases Host.Outcome.next.inj hu
    exact whenRunning_keeps hbefore fun _ => hf
  cases c with
  | resetAsserted => cases ht; exact kept.assertReset s hs
  | resetReleased a b d =>
    cases ht
    split
    · exact hs
    · exact kept.releaseReset s a b d hs
  | samplePeriodEnd lines => exact run ht hs (kept.periodEnd s lines hs)
  | sliceBoundary b => exact run ht hs (kept.sliceBoundary b hs)
  | stepBoundary b => exact run ht hs (kept.stepBoundary b hs)
  | peerLost => exact run ht hs (kept.finish (kept.recompute _ (kept.losePeers _ hs)))
  | orphanTimeout => exact run ht hs (kept.timeOutOrphans s hs)
  | listenEnd b => exact run ht hs (kept.listenEnds b hs)
  | ownWindowStart => exact run ht hs (kept.ownWindow hs)
  | windowFrameSent => exact run ht hs (kept.ownFrameSent hs)
  | windowFrameAborted read => exact run ht hs (kept.ownFrameAborted read hs)
  | recallWindowStart => exact run ht hs (kept.recallWindow hs)
  | recallFrameSent => exact run ht hs (kept.recallFrameSent hs)
  | recallFrameAborted read => exact run ht hs (kept.recallFrameAborted read hs)
  | leadInFound wait ago =>
    have passed := kept.counts s wait hs
    exact run ht passed (kept.link _ _ (leadInFound_frame _ ago) passed)
  | frameHeaderReceived header => exact run ht hs (kept.link _ _ (headerReceived_frame s header) hs)
  | frameCutBySilence => exact run ht hs (kept.link _ _ (frameCut_frame s) hs)
  | frameReceived bs => exact run ht hs (kept.frameReceived bs hs)
  | openItem k i => exact run ht hs (kept.openItem k i hs)
  | closeItem k i => exact run ht hs (kept.closeItem k i hs)
  | spanBeacon k es => exact run ht hs (kept.spanBeacon k es hs)
  | charter k body => exact run ht hs (kept.settle _ (kept.takeRequest s k (.charter body) hs))
  | condition k code => exact run ht hs (kept.takeRequest s k (.condition code) hs)
  | timeMark k e d ms => exact run ht hs (kept.takeRequest s k (.timeMark e d ms) hs)
  | probe k target v => exact run ht hs (kept.settle _ (kept.takeRequest s k (.probe target v) hs))
  | stop k target => exact run ht hs (kept.takeRequest s k (.stop target) hs)
  | start k target => exact run ht hs (kept.takeRequest s k (.start target) hs)
  | archiveMark k pairs => exact run ht hs (kept.takeRequest s k (.archiveMark pairs) hs)
  | recallRequest k tag h src mask f l =>
    exact run ht hs (kept.finish (kept.takeRequest s k (.recallRequest tag h src mask f l) hs))
  | stWaitRaised => cases ht; exact kept.waitRaised s hs
  | stWaitReleased => exact absurd rfl hc
  | pauseEnd => exact run ht hs (kept.finish (kept.pauseEnd s hs))
  | refreshTick => exact run ht hs (kept.finish (kept.refreshTick s hs))
  | refreshEnd => exact run ht hs (kept.finish (kept.refreshEnd s hs))
  | slotWriteEnd =>
    change execSlotWriteEnd s = _ at ht
    unfold execSlotWriteEnd at ht
    split at ht
    · next hop =>
      split at ht
      · exact run ht hs (kept.finish (kept.slotWritten s _ _ _ _ _ hop hs))
      · cases ht
    all_goals cases ht; exact hs
  | slotReadEnd d =>
    change execSlotReadEnd d s = _ at ht
    unfold execSlotReadEnd at ht
    split at ht
    · next hop =>
      split at ht
      · exact run ht hs (kept.finish (kept.slotFetched s _ _ d hop hs))
      · cases ht
    all_goals cases ht; exact hs

end KeptByWork

/-- The property is kept by each of the operations that the commands are made of. -/
structure KeptByOps (P : State → Prop) : Prop extends KeptByWork P where
  waitReleased : ∀ s, P s → P { s with stWait := false }

namespace KeptByOps

variable {P : State → Prop}

/-- Every command that has a next state keeps the property. -/
theorem exec (kept : KeptByOps P) {c : Instr} {s t : State} (hs : P s)
    (ht : Machine.exec c s = .next t) : P t := by
  by_cases hc : c = .stWaitReleased
  · subst hc
    have released := kept.waitReleased s hs
    cases Host.Outcome.next.inj ht
    exact whenRunning_keeps released fun _ => kept.finish released
  · exact kept.toKeptByWork.exec hc hs ht

/-- Every step keeps the property. -/
theorem step (kept : KeptByOps P) {s t : State} (hs : P s) (hstep : Machine.step s = .next t) : P t :=
  step_keeps (fun s hs => kept.counts s 1 hs) kept.pending (fun _ _ _ hs ht => kept.exec hs ht) hs hstep

end KeptByOps
end Sys2Proof.Machine
end


section
/-! SUPPORT. Proofs about the places of the store (R102, R103, R122): every step keeps them inside, so
that the model's own stop (log 39) is not reached. -/

namespace Sys2Proof.Machine

/-! ### Capacities (R102) -/

theorem storePages_eq (code : BitVec 2) : storePages code = 8 * (8192 * 2 ^ code.toNat) := by
  rw [storePages]; omega

theorem eight_ownCapacity (code : BitVec 2) (m : Nat) :
    8 * ownCapacity code m = storePages code * (8 - m) := by
  rw [ownCapacity, storePages_eq, Nat.mul_assoc, Nat.mul_div_cancel_left _ (by decide)]

theorem eight_mirrorCapacity (code : BitVec 2) (m : Nat) :
    8 * mirrorCapacity code m = storePages code * m := by
  rw [mirrorCapacity, storePages_eq, Nat.mul_assoc, Nat.mul_div_cancel_left _ (by decide)]

theorem ownCapacity_add_mirrorCapacity (code : BitVec 2) {m : Nat} (hm : m ≤ 8) :
    ownCapacity code m + mirrorCapacity code m = storePages code := by
  have hsum : storePages code * (8 - m) + storePages code * m = storePages code * 8 := by
    rw [← Nat.mul_add, Nat.sub_add_cancel hm]
  have hown := eight_ownCapacity code m
  have hmirror := eight_mirrorCapacity code m
  omega

theorem ownCapacity_pos (code : BitVec 2) {m : Nat} (hm : m < 8) : 0 < ownCapacity code m := by
  have hpos : 0 < storePages code * (8 - m) :=
    Nat.mul_pos (Nat.mul_pos (by decide) (Nat.pow_pos (by decide))) (by omega)
  have hown := eight_ownCapacity code m
  omega

/-! ### Restarts, overwrites and the pages of each ring (R103, R106, R113) -/

@[simp] theorem restartOwn_own (s : State) (c : Half) : (s.restartOwn c).rings.own = Ring.empty := by
  unfold State.restartOwn; dsimp only; split <;> rfl
@[simp] theorem restartOwn_mirror (s : State) (c : Half) :
    (s.restartOwn c).rings.mirror = s.rings.mirror := by
  unfold State.restartOwn; dsimp only; split <;> rfl
@[simp] theorem restartOwn_runs (s : State) (c : Half) : (s.restartOwn c).rings.runs = s.rings.runs := by
  unfold State.restartOwn; dsimp only; split <;> rfl
@[simp] theorem restartMirror_own (s : State) (c : Half) :
    (s.restartMirror c).rings.own = s.rings.own := by
  unfold State.restartMirror; dsimp only; split <;> rfl
@[simp] theorem restartMirror_mirror (s : State) (c : Half) :
    (s.restartMirror c).rings.mirror = Ring.empty := by
  unfold State.restartMirror; dsimp only; split <;> rfl
@[simp] theorem restartMirror_runs (s : State) (c : Half) : (s.restartMirror c).rings.runs = [] := by
  unfold State.restartMirror; dsimp only; split <;> rfl

/-- A judgment counts and arms; it leaves the rings' pages and runs (R106). -/
theorem judge_rings (s : State) (p : PageRecord) : (s.judge p).rings.own = s.rings.own ∧
    (s.judge p).rings.mirror = s.rings.mirror ∧ (s.judge p).rings.runs = s.rings.runs := by
  unfold State.judge
  split
  · dsimp only; split <;> exact ⟨rfl, rfl, rfl⟩
  · exact ⟨rfl, rfl, rfl⟩

theorem foldl_judge_rings (ps : List PageRecord) (s : State) :
    (ps.foldl State.judge s).rings.own = s.rings.own ∧
    (ps.foldl State.judge s).rings.mirror = s.rings.mirror ∧
    (ps.foldl State.judge s).rings.runs = s.rings.runs :=
  foldl_frame (P := fun s t => t.rings.own = s.rings.own ∧ t.rings.mirror = s.rings.mirror ∧
      t.rings.runs = s.rings.runs)
    (fun _ => ⟨rfl, rfl, rfl⟩)
    (fun h h' => ⟨h'.1.trans h.1, h'.2.1.trans h.2.1, h'.2.2.trans h.2.2⟩) _ judge_rings ps s

theorem Ring.tail_of_nil {r : Ring} (hnil : r.pages = []) : { r with pages := r.pages.tail } = r := by
  rw [hnil, List.tail_nil, ← hnil]

/-- Making room in the own ring takes its oldest page out when the ring is full, and leaves the mirror
ring and the runs (R103). -/
theorem makeRoomOwn_rings (s : State) :
    s.makeRoomOwn.rings.own =
      (if s.rings.own.pages.length < s.ownCap then s.rings.own
        else { s.rings.own with pages := s.rings.own.pages.tail }) ∧
    s.makeRoomOwn.rings.mirror = s.rings.mirror ∧ s.makeRoomOwn.rings.runs = s.rings.runs := by
  unfold State.makeRoomOwn
  split
  · exact ⟨rfl, rfl, rfl⟩
  · split
    · next hnil => exact ⟨(Ring.tail_of_nil hnil).symm, rfl, rfl⟩
    · next p rest hcons =>
      obtain ⟨hown, hmirror, hruns⟩ := judge_rings
        (s.withRings { s.rings with own := { s.rings.own with pages := rest } }) p
      exact ⟨by rw [hown, hcons]; rfl, hmirror, hruns⟩

/-- Making room in the mirror ring takes its oldest page out, and from its run, when the ring is full
(R103, R111). -/
theorem makeRoomMirror_rings (s : State) :
    s.makeRoomMirror.rings.own = s.rings.own ∧
    s.makeRoomMirror.rings.mirror =
      (if s.rings.mirror.pages.length < s.mirrorCap then s.rings.mirror
        else { s.rings.mirror with pages := s.rings.mirror.pages.tail }) ∧
    s.makeRoomMirror.rings.runs =
      (if s.rings.mirror.pages.length < s.mirrorCap ∨ s.rings.mirror.pages = [] then s.rings.runs
        else loseFirst s.rings.runs) := by
  unfold State.makeRoomMirror
  split
  · next hroom => exact ⟨rfl, rfl, (if_pos (.inl hroom)).symm⟩
  · next hfull =>
    split
    · next hnil =>
      exact ⟨rfl, (Ring.tail_of_nil hnil).symm, (if_pos (.inr hnil)).symm⟩
    · next p rest hcons =>
      obtain ⟨hown, hmirror, hruns⟩ := judge_rings
        (s.withRings { s.rings with
          mirror := { s.rings.mirror with pages := rest }, runs := loseFirst s.rings.runs }) p
      refine ⟨hown, by rw [hmirror, hcons]; rfl, ?_⟩
      rw [hruns, if_neg fun h => h.elim hfull (by simp [hcons])]
      rfl

/-! ### Places inside the store -/

/-- As `Ring.inside`. -/
structure Ring.Inside (r : Ring) (capacity : Nat) : Prop where
  room : r.pages.length ≤ capacity
  next : capacity = 0 ∨ r.nextPlace < capacity
  places : ∀ p ∈ r.pages, p.place < capacity

theorem Ring.inside_iff (r : Ring) (capacity : Nat) :
    r.inside capacity = true ↔ r.Inside capacity := by
  simp only [Ring.inside, Bool.and_eq_true, decide_eq_true_eq, List.all_eq_true]
  exact ⟨fun ⟨⟨h1, h2⟩, h3⟩ => ⟨h1, h2, h3⟩, fun ⟨h1, h2, h3⟩ => ⟨⟨h1, h2⟩, h3⟩⟩

theorem Ring.empty_inside (capacity : Nat) : Ring.empty.Inside capacity :=
  ⟨Nat.zero_le _, Nat.eq_zero_or_pos _, fun _ h => nomatch h⟩

/-- Fewer pages of the ring and the same next place. -/
theorem Ring.Inside.sublist {r : Ring} {capacity : Nat} (h : r.Inside capacity)
    {pages : List PageRecord} (hsub : pages.Sublist r.pages) :
    Ring.Inside { r with pages := pages } capacity :=
  ⟨hsub.length_le.trans h.room, h.next, fun p hp => h.places p (hsub.subset hp)⟩

/-- As `PageWrite.inside`. -/
def PageWrite.Inside (w : Option PageWrite) (r : Ring) (capacity : Nat) : Prop :=
  ∀ x, w = some x → x.place < capacity ∧ r.pages.length < capacity

theorem PageWrite.inside_iff (w : Option PageWrite) (r : Ring) (capacity : Nat) :
    PageWrite.inside w r capacity = true ↔ PageWrite.Inside w r capacity := by
  cases w <;> simp [PageWrite.inside, PageWrite.Inside]

theorem PageWrite.none_inside (r : Ring) (capacity : Nat) : PageWrite.Inside none r capacity :=
  fun _ h => nomatch h

/-- As `State.placesInside`. -/
structure State.Inside (s : State) : Prop where
  share : s.control.charter.mirrorShare ≤ 4
  pendingShare : ∀ p, s.control.pendingCharter = some p → p.charter.mirrorShare ≤ 4
  own : s.rings.own.Inside s.ownCap
  mirror : s.rings.mirror.Inside s.mirrorCap
  captureWrite : PageWrite.Inside s.store.captureWrite s.rings.own s.ownCap
  mirrorWrite : PageWrite.Inside s.store.mirrorWrite s.rings.mirror s.mirrorCap
  op : StoreOp.inside s.store.op (storePages s.control.sizeCode) = true

theorem placesInside_iff (s : State) : s.placesInside = true ↔ s.Inside := by
  have shares : s.control.sharesInRange = true ↔ s.control.charter.mirrorShare ≤ 4 ∧
      ∀ p, s.control.pendingCharter = some p → p.charter.mirrorShare ≤ 4 := by
    unfold Control.sharesInRange
    cases s.control.pendingCharter <;> simp
  simp only [State.placesInside, Bool.and_eq_true, shares, Ring.inside_iff, PageWrite.inside_iff]
  exact ⟨fun ⟨⟨⟨⟨⟨⟨h1, h2⟩, h3⟩, h4⟩, h5⟩, h6⟩, h7⟩ => ⟨h1, h2, h3, h4, h5, h6, h7⟩,
    fun ⟨h1, h2, h3, h4, h5, h6, h7⟩ => ⟨⟨⟨⟨⟨⟨h1, h2⟩, h3⟩, h4⟩, h5⟩, h6⟩, h7⟩⟩

/-- Everything that `State.placesInside` reads. -/
def State.places (s : State) : Ring × Ring × Option PageWrite × Option PageWrite × Option StoreOp ×
    Charter × Option PendingCharter × BitVec 2 :=
  (s.rings.own, s.rings.mirror, s.store.captureWrite, s.store.mirrorWrite, s.store.op,
    s.control.charter, s.control.pendingCharter, s.control.sizeCode)

theorem State.Inside.of_places {s t : State} (hs : s.Inside) (h : t.places = s.places) :
    t.Inside := by
  simp only [State.places, Prod.mk.injEq] at h
  obtain ⟨hown, hmirror, hcw, hmw, hop, hcharter, hpending, hcode⟩ := h
  have hownCap : t.ownCap = s.ownCap := by rw [State.ownCap, hcharter, hcode]; rfl
  have hmirrorCap : t.mirrorCap = s.mirrorCap := by rw [State.mirrorCap, hcharter, hcode]; rfl
  exact
    { share := hcharter ▸ hs.share, pendingShare := hpending ▸ hs.pendingShare
      own := by rw [hown, hownCap]; exact hs.own
      mirror := by rw [hmirror, hmirrorCap]; exact hs.mirror
      captureWrite := by rw [hcw, hown, hownCap]; exact hs.captureWrite
      mirrorWrite := by rw [hmw, hmirror, hmirrorCap]; exact hs.mirrorWrite
      op := by rw [hop, hcode]; exact hs.op }

theorem State.Inside.ownCap_pos {s : State} (hs : s.Inside) : 0 < s.ownCap :=
  ownCapacity_pos _ (Nat.lt_of_le_of_lt hs.share (by decide))

theorem State.Inside.caps {s : State} (hs : s.Inside) :
    s.ownCap + s.mirrorCap = storePages s.control.sizeCode :=
  ownCapacity_add_mirrorCapacity _ (hs.share.trans (by decide))

/-! ### Operations that leave the places as they are -/

theorem OnlySpans.places {s t : State} : OnlySpans s t → t.places = s.places := by
  rintro ⟨_, _, rfl⟩; rfl
theorem OnlyServer.places {s t : State} : OnlyServer s t → t.places = s.places := by
  rintro ⟨_, rfl⟩; rfl
theorem OnlyClock.places {s t : State} : OnlyClock s t → t.places = s.places := by
  rintro ⟨_, _, rfl⟩; rfl
theorem OnlyLink.places {s t : State} : OnlyLink s t → t.places = s.places := by
  rintro ⟨_, rfl⟩; rfl

theorem countsPass_places (s : State) (n : Nat) : (s.countsPass n).places = s.places := by
  unfold State.countsPass; split <;> rfl

theorem clockBoundary_places (s : State) (p : Presented) (n : Nat) :
    (s.clockBoundary p n).places = s.places := by
  unfold State.clockBoundary
  dsimp only
  split
  · exact (takeStep_frame _ _).places
  · rfl

theorem foldl_places {α : Type} (f : State → α → State) (step : ∀ s a, (f s a).places = s.places)
    (l : List α) (s : State) : (l.foldl f s).places = s.places :=
  foldl_frame (P := fun s t => t.places = s.places) (fun _ => rfl) (fun h h' => h'.trans h) f step l s

theorem losePeer_places (s : State) (k : StationId) : (s.losePeer k).places = s.places := by
  unfold State.losePeer
  refine (purgeRecall_frame _ _).places.trans ?_
  split
  · exact (custodyReport_frame _ _ _ _).places
  · exact (lossReport_frame _ _ _).places

theorem losePeers_places (s : State) : s.losePeers.places = s.places := by
  refine foldl_places _ (fun s k => ?_) _ _
  split
  · exact losePeer_places s k
  · rfl

theorem settleUnsent_places (s : State) : s.settleUnsent.places = s.places := by
  unfold State.settleUnsent; split <;> rfl

theorem stageCapture_places (s : State) (p : OwnPage) : (s.stageCapture p).places = s.places := by
  unfold State.stageCapture
  split
  · rfl
  · split <;> rfl

theorem stageMirror_places (s : State) (p : MirrorPage) : (s.stageMirror p).places = s.places := by
  unfold State.stageMirror
  split
  · rfl
  · split <;> rfl

theorem updateLane_places (o : State) (p : Presented) (s : State) (l : Lane) :
    (o.updateLane p s l).places = s.places := by
  unfold State.updateLane; dsimp only; split <;> rfl

theorem seatBoundary_places (s : State) (p : Presented) (q : Option Split) :
    (s.seatBoundary p q).places = s.places := by
  refine Eq.trans ?_ (settleUnsent_places s)
  unfold State.seatBoundary State.capturedBoundary
  dsimp only
  split
  · refine (stageCapture_places _ _).trans ?_
    exact (foldl_places _ (fun t l => (detectorLane_frame t l _ _ _ _).places) _ _).trans
      (foldl_places _ (fun t l => updateLane_places _ _ t l) _ _)
  · exact foldl_places _ (fun t l => (detectOnly_frame _ t l).places) _ _

theorem changeCondition_places (s : State) : s.changeCondition.places = s.places := by
  unfold State.changeCondition; split <;> rfl

theorem decideListen_places (s : State) (b : Bool) : (s.decideListen b).places = s.places := by
  have settled : s.settleDefaults.places = s.places := by
    unfold State.settleDefaults; split <;> rfl
  unfold State.decideListen
  dsimp only
  split <;> exact settled

theorem changeMode_places (s : State) (b : Bool) : (s.changeMode b).places = s.places := by
  unfold State.changeMode
  split
  · rfl
  · split <;> rfl
  · exact decideListen_places _ _
  · split <;> rfl
  · split
    · rfl
    · dsimp only; split <;> rfl

theorem presentReference_places (s : State) (n : Option StationId) :
    (s.presentReference n).places = s.places := by
  unfold State.presentReference
  dsimp only
  split
  · rfl
  · split
    · exact (followReference_frame _ _ _).places
    · rfl

theorem presentMirror_places (s : State) (n : Option StationId) :
    (s.presentMirror n).places = s.places := by
  unfold State.presentMirror; dsimp only; split <;> rfl

theorem recompute_places (s : State) : s.recompute.places = s.places := by
  have disarmed : ∀ u : State, u.disarmIfOwn.places = u.places := by
    intro u; unfold State.disarmIfOwn; split <;> rfl
  exact (disarmed _).trans ((presentMirror_places _ _).trans (presentReference_places _ _))

theorem endFree_places (s : State) (m : Option Mode) : (s.endFree m).places = s.places := by
  unfold State.endFree; split <;> rfl

theorem startWindow_places (s : State) : s.startWindow.places = s.places := by
  unfold State.startWindow
  split
  · rfl
  · exact settleUnsent_places s

theorem windowSent_places (s : State) (page : Option Slice) (n : Nat) (plan : List PlanItem)
    (claim : Bool) : (s.windowSent page n plan claim).places = s.places := by
  unfold State.windowSent; dsimp only; split <;> split <;> rfl

theorem windowAborted_places (s : State) (page : Option Slice) (n : Nat) :
    (s.windowAborted page n).places = s.places := by
  unfold State.windowAborted
  dsimp only
  split
  · exact settleUnsent_places s
  · rfl

theorem startRecall_places (s : State) : s.startRecall.places = s.places := by
  obtain ⟨_, _, h⟩ := startRecall_frame s
  rw [h]; rfl

theorem reportIncarnation_places (s : State) (k : StationId) (e : RosterEntry) :
    (s.reportIncarnation k e).places = s.places := by
  unfold State.reportIncarnation; dsimp only; split <;> rfl

theorem applyHeader_places (s : State) (h : Header) (t : Option Slice) :
    (s.applyHeader h t).places = s.places := by
  unfold State.applyHeader
  dsimp only
  refine (recompute_places _).trans ?_
  have told : ∀ (u : State) (c : Hearing), State.places (match c.detail with
      | none => u
      | some d => u.raise .roster .peerJoined h.sender.val d) = u.places := by
    intro u c; split <;> rfl
  have reported : ∀ c : Hearing, State.places (if c.isNew = true then
      s.reportIncarnation h.sender (s.entry h.sender) else s) = s.places := by
    intro c
    split
    · exact reportIncarnation_places _ _ _
    · rfl
  split
  · exact (returnReport_frame _ _ _).places.trans ((told _ _).trans (reported _))
  · exact (told _ _).trans (reported _)

theorem hearCondition_places (s : State) (h : Header) : (s.hearCondition h).places = s.places := by
  unfold State.hearCondition
  dsimp only
  split
  · split
    · split
      · split <;> rfl
      · rfl
    · rfl
  · rfl

theorem mirrorBlocks_places (s : State) (k : StationId) (bs : List Block) :
    (s.mirrorBlocks k bs).places = s.places := by
  unfold State.mirrorBlocks
  split
  · split
    · rfl
    · exact stageMirror_places _ _
  · rfl

theorem judgeRecall_places (s : State) (k : StationId) (t : Half) (a b : Byte) (f l : Slice) :
    (s.judgeRecall k t a b f l).places = s.places := by
  unfold State.judgeRecall State.refuseRecall
  split
  · rfl
  · dsimp only
    split
    · rfl
    · split
      · rfl
      · split
        · rfl
        · split
          · rfl
          · split <;> rfl

theorem takeArchiveMark_places (s : State) (k : StationId) (pairs : List (Byte × Slice)) :
    (s.takeArchiveMark k pairs).places = s.places := by
  have one : ∀ (r : Rings) (p : Byte × Slice),
      (r.takePair p).own = r.own ∧ (r.takePair p).mirror = r.mirror := by
    intro r p
    unfold Rings.takePair
    split
    · exact ⟨rfl, rfl⟩
    · split <;> exact ⟨rfl, rfl⟩
  have all : ∀ (ps : List (Byte × Slice)) (r : Rings),
      (r.takePairs ps).own = r.own ∧ (r.takePairs ps).mirror = r.mirror := by
    intro ps
    induction ps with
    | nil => exact fun _ => ⟨rfl, rfl⟩
    | cons p ps ih =>
      intro r
      exact ⟨(ih _).1.trans (one r p).1, (ih _).2.trans (one r p).2⟩
  unfold State.takeArchiveMark
  split
  · obtain ⟨hown, hmirror⟩ := all pairs s.rings
    simp only [State.places, withRings_rings, withRings_store, withRings_control, hown, hmirror]
  · rfl

theorem pauseEnd_places (s : State) : s.pauseEnd.places = s.places := by
  unfold State.pauseEnd; split <;> rfl

/-! ### Grants -/

/-- Only a refresh differs among the operations: no place is concerned. -/
theorem startRefresh_inside {s : State} (hs : s.Inside) : (s.withStore s.store.startRefresh).Inside :=
  { hs with op := rfl }

theorem restartOwn_inside {s : State} (c : Half) (hs : s.Inside) : (s.restartOwn c).Inside := by
  have hown := restartOwn_own s c
  have hmirror := restartOwn_mirror s c
  obtain ⟨a, r, h⟩ := restartOwn_frame s c
  rw [h] at hown hmirror ⊢
  exact { hs with
    own := hown ▸ Ring.empty_inside _, mirror := hmirror ▸ hs.mirror
    captureWrite := fun x hx => ⟨(hs.captureWrite x hx).1, hown ▸ hs.ownCap_pos⟩
    mirrorWrite := hmirror ▸ hs.mirrorWrite }

theorem restartMirror_inside {s : State} (c : Half) (hs : s.Inside) : (s.restartMirror c).Inside := by
  have hown := restartMirror_own s c
  have hmirror := restartMirror_mirror s c
  obtain ⟨a, r, h⟩ := restartMirror_frame s c
  rw [h] at hown hmirror ⊢
  exact { hs with
    own := hown ▸ hs.own, mirror := hmirror ▸ Ring.empty_inside _
    captureWrite := hown ▸ hs.captureWrite
    mirrorWrite := fun x hx => ⟨(hs.mirrorWrite x hx).1,
      hmirror ▸ Nat.lt_of_le_of_lt (Nat.zero_le _) (hs.mirrorWrite x hx).1⟩ }

/-- After its begin a capture page has room in the own ring (R103). -/
theorem beginOwn_inside {s : State} (p : OwnPage) (hs : s.Inside) :
    (s.beginOwn p).Inside ∧ (s.beginOwn p).rings.own.pages.length < s.ownCap := by
  have room : ∀ u : State, u.Inside →
      u.makeRoomOwn.Inside ∧ u.makeRoomOwn.rings.own.pages.length < u.ownCap := by
    intro u hu
    obtain ⟨hown, hmirror, -⟩ := makeRoomOwn_rings u
    have hlength : u.makeRoomOwn.rings.own.pages.length < u.ownCap := by
      rw [hown]
      split
      · assumption
      · have hroom := hu.own.room
        have hpos := hu.ownCap_pos
        simp only [List.length_tail]
        omega
    have hinside : u.makeRoomOwn.rings.own.Inside u.ownCap := by
      rw [hown]
      split
      · exact hu.own
      · exact hu.own.sublist (List.tail_sublist _)
    obtain ⟨a, r, h⟩ := makeRoomOwn_frame u
    rw [h] at hmirror hlength hinside ⊢
    exact ⟨{ hu with
      own := hinside, mirror := hmirror ▸ hu.mirror
      captureWrite := fun x hx => ⟨(hu.captureWrite x hx).1, hlength⟩
      mirrorWrite := hmirror ▸ hu.mirrorWrite }, hlength⟩
  unfold State.beginOwn
  split
  · exact room s hs
  · split
    · exact room s hs
    · obtain ⟨a, r, h⟩ := restartOwn_frame s causeBackwardOwn
      have hcap : (s.restartOwn causeBackwardOwn).ownCap = s.ownCap := by rw [h]; rfl
      rw [← hcap]
      exact room _ (restartOwn_inside _ hs)

theorem handover_inside {s : State} (hs : s.Inside) : s.handover.Inside := by
  unfold State.handover
  split
  · exact hs
  · next p hp =>
    have hsub : s.rings.mirror.pages.dropLast.Sublist s.rings.mirror.pages := List.dropLast_sublist _
    have hfewer := hs.mirror.sublist hsub
    exact { hs with
      mirror := ⟨hfewer.room, .inr (hs.mirror.places p (List.mem_of_getLast? hp)), hfewer.places⟩
      mirrorWrite := fun x hx => ⟨(hs.mirrorWrite x hx).1,
        Nat.lt_of_le_of_lt hsub.length_le (hs.mirrorWrite x hx).2⟩ }

/-- After its begin a mirror page has room in the mirror ring, where that has room at all (R103). -/
theorem beginMirror_inside {s : State} (p : MirrorPage) (hs : s.Inside) (hcap : 0 < s.mirrorCap) :
    (s.beginMirror p).Inside ∧ (s.beginMirror p).rings.mirror.pages.length < s.mirrorCap := by
  have room : ∀ u : State, u.Inside → u.mirrorCap = s.mirrorCap →
      u.makeRoomMirror.Inside ∧ u.makeRoomMirror.rings.mirror.pages.length < s.mirrorCap := by
    intro u hu hsame
    rw [← hsame] at hcap ⊢
    obtain ⟨hown, hmirror, -⟩ := makeRoomMirror_rings u
    have hlength : u.makeRoomMirror.rings.mirror.pages.length < u.mirrorCap := by
      rw [hmirror]
      split
      · assumption
      · have hroom := hu.mirror.room
        simp only [List.length_tail]
        omega
    have hinside : u.makeRoomMirror.rings.mirror.Inside u.mirrorCap := by
      rw [hmirror]
      split
      · exact hu.mirror
      · exact hu.mirror.sublist (List.tail_sublist _)
    obtain ⟨a, r, h⟩ := makeRoomMirror_frame u
    rw [h] at hown hlength hinside ⊢
    exact ⟨{ hu with
      own := hown ▸ hu.own, mirror := hinside
      captureWrite := hown ▸ hu.captureWrite
      mirrorWrite := fun x hx => ⟨(hu.mirrorWrite x hx).1, hlength⟩ }, hlength⟩
  have restarted : (s.restartMirror causeBackwardMirror).mirrorCap = s.mirrorCap := by
    obtain ⟨a, r, h⟩ := restartMirror_frame s causeBackwardMirror
    rw [h]; rfl
  have handed : s.handover.mirrorCap = s.mirrorCap := by
    obtain ⟨a, r, h⟩ := handover_frame s
    rw [h]; rfl
  unfold State.beginMirror
  split
  · exact room s hs rfl
  · split
    · exact room _ (restartMirror_inside _ hs) restarted
    · split
      · split
        · exact room _ (restartMirror_inside _ hs) restarted
        · exact room _ (handover_inside hs) handed
      · exact room s hs rfl

theorem grantCapture_inside {s : State} (p : OwnPage) (hs : s.Inside) : (s.grantCapture p).Inside := by
  have write : ∀ (u : State) (w : PageWrite), u.Inside → u.store.captureWrite = some w →
      (u.withStore { u.store with op := some (.writeSlot .capture (u.storePage .capture w.place) w.lane
        (u.captureSlot p w.lane) true) }).Inside := by
    intro u w hu hw
    refine { hu with op := decide_eq_true ?_ }
    have hplace := (hu.captureWrite w hw).1
    have hcaps := hu.caps
    simp only [State.storePage, withStore_control]
    omega
  unfold State.grantCapture
  cases hw : s.store.captureWrite with
  | some w =>
    simpa only [hw] using write s w hs hw
  | none =>
    obtain ⟨hbegun, hroom⟩ := beginOwn_inside p hs
    obtain ⟨a, r, h⟩ := beginOwn_frame s p
    have hnext : (s.beginOwn p).rings.own.nextPlace < (s.beginOwn p).ownCap :=
      hbegun.own.next.resolve_left (Nat.ne_of_gt hbegun.ownCap_pos)
    have hsame : (s.beginOwn p).ownCap = s.ownCap := by rw [h]; rfl
    refine write _ _ { hbegun with captureWrite := fun x hx => ?_ } rfl
    cases hx
    exact ⟨hnext, hsame ▸ hroom⟩

theorem grantMirror_inside {s : State} (p : MirrorPage) (hs : s.Inside)
    (hcap : s.store.mirrorWrite = none → 0 < s.mirrorCap) : (s.grantMirror p).Inside := by
  have write : ∀ (u : State) (w : PageWrite), u.Inside → u.store.mirrorWrite = some w →
      (u.withStore { u.store with op := some (.writeSlot .mirror (u.storePage .mirror w.place) w.lane
        (mirrorSlot p w.lane) true) }).Inside := by
    intro u w hu hw
    refine { hu with op := decide_eq_true ?_ }
    have hplace := (hu.mirrorWrite w hw).1
    have hcaps := hu.caps
    simp only [State.storePage, withStore_control]
    omega
  unfold State.grantMirror
  cases hw : s.store.mirrorWrite with
  | some w =>
    simpa only [hw] using write s w hs hw
  | none =>
    obtain ⟨hbegun, hroom⟩ := beginMirror_inside p hs (hcap hw)
    obtain ⟨a, r, h⟩ := beginMirror_frame s p
    have hsame : (s.beginMirror p).mirrorCap = s.mirrorCap := by rw [h]; rfl
    have hnext : (s.beginMirror p).rings.mirror.nextPlace < (s.beginMirror p).mirrorCap :=
      hbegun.mirror.next.resolve_left (by rw [hsame]; exact Nat.ne_of_gt (hcap hw))
    refine write _ _ { hbegun with mirrorWrite := fun x hx => ?_ } rfl
    cases hx
    exact ⟨hnext, hsame ▸ hroom⟩

/-- A lookup that holds a page names one of the ring's (R116, R117). -/
theorem lookup_held {s : State} {k : StationId} {t : Slice} {l : Lane} {p : PageRecord}
    (hheld : s.lookup k t l = .held p) :
    if k = s.control.id then p ∈ s.rings.own.pages else p ∈ s.rings.mirror.pages := by
  have answered : ∀ q : PageRecord, q.answer l = .held p → q = p := by
    intro q hq
    unfold PageRecord.answer at hq
    split at hq <;> cases hq
    rfl
  unfold State.lookup at hheld
  split
  · next hown =>
    rw [if_pos hown, Rings.lookupOwn] at hheld
    split at hheld
    · next q hq => exact answered q hheld ▸ List.mem_of_find?_eq_some hq
    · repeat' split at hheld
      all_goals cases hheld
  · next hother =>
    rw [if_neg hother, Rings.lookupMirror] at hheld
    split at hheld
    · split at hheld
      · next q hq => exact answered q hheld ▸ List.mem_of_find?_eq_some hq
      · cases hheld
    · split at hheld
      · split at hheld
        · cases hheld
        · split at hheld <;> cases hheld
      · cases hheld

theorem grantRead_inside {s : State} (c : Claim) {p : PageRecord} (pos : ReadPos) (hs : s.Inside)
    (hheld : s.lookup c.source c.slice c.lane = .held p) : (s.grantRead c p pos).Inside := by
  refine { hs with op := decide_eq_true ?_ }
  have hcaps := hs.caps
  have hmem := lookup_held hheld
  change s.storePage (s.ringOf c.source) p.place < storePages s.control.sizeCode
  simp only [State.storePage, State.ringOf]
  split at hmem
  · next hown =>
    have := hs.own.places p hmem
    simp only [hown, if_true]
    omega
  · next hother =>
    have := hs.mirror.places p hmem
    simp only [hother, if_false]
    omega

theorem answerClaim_places (s : State) (f : Lookup) : (s.answerClaim f).places = s.places :=
  ((produceLookup_frame _ f).trans (pump_frame _)).places.trans rfl

theorem grantFrom_inside (n : Nat) {s : State} (hs : s.Inside) : (s.grantFrom n).Inside := by
  induction n generalizing s with
  | zero => exact hs
  | succ n ih =>
    unfold State.grantFrom
    split
    · exact hs
    · split
      · exact hs
      · exact startRefresh_inside hs
      · split
        · exact startRefresh_inside hs
        · split
          · exact grantCapture_inside _ hs
          · split
            · split
              · exact ih (hs.of_places rfl)
              · next hgo =>
                refine grantMirror_inside _ hs fun hnone => ?_
                exact Nat.pos_of_ne_zero fun hzero => hgo ⟨hnone, hzero⟩
            · split
              · split
                · next hheld => exact grantRead_inside _ _ hs hheld
                all_goals exact ih (hs.of_places (answerClaim_places _ _))
              · split
                · exact startRefresh_inside hs
                · exact hs

/-! ### Ends of operations, store faults and charters -/

theorem completeOwn_inside {s : State} (p : OwnPage) {place : Nat} (hs : s.Inside)
    (hnone : s.store.captureWrite = none) (hplace : place < s.ownCap)
    (hroom : s.rings.own.pages.length < s.ownCap) : (s.completeOwn p place).Inside := by
  refine { hs with
    own := ⟨?_, .inr (Nat.mod_lt _ hs.ownCap_pos), fun q hq => ?_⟩
    captureWrite := fun x hx => ?_ }
  · change (s.rings.own.pages ++ [_]).length ≤ s.ownCap
    simpa using hroom
  · simp only [State.completeOwn, withRings_rings, List.mem_append, List.mem_singleton] at hq
    obtain hq | rfl := hq
    · exact hs.own.places q hq
    · exact hplace
  · rw [show (s.completeOwn p place).store = s.store from rfl, hnone] at hx
    cases hx

theorem giveUpOldestRun_mirror (s : State) : ∃ pages, pages.Sublist s.rings.mirror.pages ∧
    s.giveUpOldestRun.rings.mirror = { s.rings.mirror with pages := pages } ∧
    s.giveUpOldestRun.rings.own = s.rings.own := by
  unfold State.giveUpOldestRun
  split
  · exact ⟨_, List.Sublist.refl _, rfl, rfl⟩
  · next r rs _ =>
    obtain ⟨hown, hmirror, -⟩ := foldl_judge_rings (s.rings.mirror.pages.takeWhile r.holds)
      (s.withRings { s.rings with
        mirror := { s.rings.mirror with pages := s.rings.mirror.pages.dropWhile r.holds }
        runs := rs })
    exact ⟨_, List.dropWhile_sublist _, hmirror, hown⟩

theorem completeMirror_inside {s : State} (p : MirrorPage) {place : Nat} (hs : s.Inside)
    (hnone : s.store.mirrorWrite = none) (hplace : place < s.mirrorCap)
    (hroom : s.rings.mirror.pages.length < s.mirrorCap) : (s.completeMirror p place).Inside := by
  have done : ∀ u : State, OnlyRings s u → u.rings.own = s.rings.own →
      (∃ pages, pages.Sublist s.rings.mirror.pages ∧
        u.rings.mirror = { s.rings.mirror with pages := pages }) →
      (u.withRings { u.rings with
        mirror :=
          { pages := u.rings.mirror.pages ++
              [{ slice := p.slice, source := p.source, absent := absentMask p.slots
                 stepped := false, unsent := false, place := place }]
            high := some p.slice, nextPlace := (place + 1) % s.mirrorCap } }).Inside := by
    rintro u ⟨a, r, rfl⟩ hown ⟨pages, hsub, hmirror⟩
    simp only at hown hmirror
    refine { hs with
      own := hown ▸ hs.own, captureWrite := hown ▸ hs.captureWrite
      mirror := ⟨?_, .inr (Nat.mod_lt _ (by omega)), fun q hq => ?_⟩
      mirrorWrite := fun x hx => nomatch hnone ▸ hx }
    · simp only [withRings_rings, hmirror, List.length_append, List.length_singleton]
      exact Nat.lt_of_le_of_lt hsub.length_le hroom
    · simp only [withRings_rings, hmirror, List.mem_append, List.mem_singleton] at hq
      obtain hq | rfl := hq
      · exact hs.mirror.places q (hsub.subset hq)
      · exact hplace
  unfold State.completeMirror
  dsimp only
  split
  · exact done _ ⟨_, _, rfl⟩ rfl ⟨_, List.Sublist.refl _, rfl⟩
  · split
    · exact done _ ⟨_, _, rfl⟩ rfl ⟨_, List.Sublist.refl _, rfl⟩
    · obtain ⟨pages, hsub, hmirror, hown⟩ := giveUpOldestRun_mirror s
      exact done _ ((giveUpOldestRun_frame s).trans ⟨_, _, rfl⟩) hown ⟨pages, hsub, hmirror⟩

theorem advanceCapture_inside {s : State} (hs : s.Inside) : s.advanceCapture.Inside := by
  unfold State.advanceCapture
  split
  · next w p rest hw _ =>
    obtain ⟨hplace, hroom⟩ := hs.captureWrite w hw
    split
    · exact completeOwn_inside p
        (s := s.withStore { s.store with captureWrite := none, capture := rest })
        { hs with captureWrite := PageWrite.none_inside _ _ } rfl hplace hroom
    · refine { hs with captureWrite := fun x hx => ?_ }
      cases hx
      exact ⟨hplace, hroom⟩
  · exact hs

theorem advanceMirror_inside {s : State} (hs : s.Inside) : s.advanceMirror.Inside := by
  unfold State.advanceMirror
  split
  · next w p rest hw _ =>
    obtain ⟨hplace, hroom⟩ := hs.mirrorWrite w hw
    split
    · exact completeMirror_inside p
        (s := s.withStore { s.store with mirrorWrite := none, mirror := rest })
        { hs with mirrorWrite := PageWrite.none_inside _ _ } rfl hplace hroom
    · refine { hs with mirrorWrite := fun x hx => ?_ }
      cases hx
      exact ⟨hplace, hroom⟩
  · exact hs

theorem slotWritten_inside {s : State} (kind : PageKind) (page : Nat) (lane : Lane)
    (bytes : List Byte) (live : Bool) (hs : s.Inside) :
    (s.slotWritten kind page lane bytes live).Inside := by
  have ended : ∀ d : List Host.Cell, State.Inside (State.withStore { s with dram := d }
      { s.store with op := none }) := fun d => { hs with op := rfl }
  unfold State.slotWritten State.advanceWrite
  split
  · split
    · exact advanceCapture_inside (ended _)
    · exact advanceMirror_inside (ended _)
  · exact ended _

theorem slotFetched_inside {s : State} (c : Claim) (page : Nat) (damage : List (Fin 512 × Byte))
    (hs : s.Inside) : (s.slotFetched c page damage).Inside :=
  { hs with op := rfl }

/-- With both rings empty and no page write in progress only the shares and the operation matter. -/
theorem inside_of_empty {s : State} (hown : s.rings.own = Ring.empty)
    (hmirror : s.rings.mirror = Ring.empty) (hcapture : s.store.captureWrite = none)
    (hwrite : s.store.mirrorWrite = none) (hshare : s.control.charter.mirrorShare ≤ 4)
    (hpending : ∀ p, s.control.pendingCharter = some p → p.charter.mirrorShare ≤ 4)
    (hop : StoreOp.inside s.store.op (storePages s.control.sizeCode) = true) : s.Inside where
  share := hshare
  pendingShare := hpending
  own := hown ▸ Ring.empty_inside _
  mirror := hmirror ▸ Ring.empty_inside _
  captureWrite := hcapture ▸ PageWrite.none_inside _ _
  mirrorWrite := hwrite ▸ PageWrite.none_inside _ _
  op := hop

theorem restartWrites_op (x : Store) (pages : Nat) :
    StoreOp.inside x.restartWrites.op pages = StoreOp.inside x.op pages := by
  unfold Store.restartWrites
  dsimp only
  split
  · next hop => rw [hop]; rfl
  all_goals simp only [*]

/-- The rings are empty after a restart of both. -/
theorem restarted_rings (s : State) (c d : Half) :
    ((s.restartOwn c).restartMirror d).rings.own = Ring.empty ∧
    ((s.restartOwn c).restartMirror d).rings.mirror = Ring.empty ∧
    ((s.restartOwn c).restartMirror d).rings.runs = [] := by
  simp

theorem restarted_frame (s : State) (c d : Half) :
    OnlyRings s ((s.restartOwn c).restartMirror d) :=
  (restartOwn_frame s c).trans (restartMirror_frame _ d)

theorem storeFault_inside {s : State} (hs : s.Inside) : s.storeFault.Inside := by
  unfold State.storeFault
  dsimp only
  generalize hu : State.raise _ _ _ _ _ = u
  have hcontrol : u.control = s.control := by rw [← hu]; rfl
  have hstore : u.store = { s.store.restartWrites with reinits := satSucc 65535 s.store.reinits } := by
    rw [← hu]; rfl
  obtain ⟨hown, hmirror, -⟩ := restarted_rings u causeStoreFault causeStoreFault
  obtain ⟨a, r, h⟩ := restarted_frame u causeStoreFault causeStoreFault
  rw [h] at hown hmirror ⊢
  refine inside_of_empty hown hmirror ?_ ?_ ?_ ?_ ?_
  · exact congrArg Store.captureWrite hstore
  · exact congrArg Store.mirrorWrite hstore
  · exact hcontrol ▸ hs.share
  · exact hcontrol ▸ hs.pendingShare
  · change StoreOp.inside u.store.op (storePages u.control.sizeCode) = true
    rw [hcontrol, hstore]
    exact (restartWrites_op _ _).trans hs.op

theorem refreshTick_inside {s : State} (hs : s.Inside) : s.refreshTick.Inside := by
  unfold State.refreshTick
  split
  · split
    · exact storeFault_inside hs
    · exact hs.of_places rfl
  · exact hs

theorem refreshEnd_inside {s : State} (hs : s.Inside) : s.refreshEnd.Inside := by
  unfold State.refreshEnd
  dsimp only
  split
  · split
    · split <;> exact { hs with op := rfl }
    · exact { hs with op := rfl }
  · exact hs

theorem resplit_empty (s : State) : s.resplit.rings.own = Ring.empty ∧
    s.resplit.rings.mirror = Ring.empty ∧ s.resplit.store = s.store.restartWrites ∧
    s.resplit.control = s.control := by
  obtain ⟨hown, hmirror, -⟩ := restarted_rings s causeResplit causeResplit
  obtain ⟨a, r, h⟩ := restarted_frame s causeResplit causeResplit
  refine ⟨hown, hmirror, ?_, ?_⟩ <;> · simp only [State.resplit, h]; rfl

/-- A charter in range that comes into force keeps the places inside: with another m the rings start
empty (R114). -/
theorem enforce_inside {s : State} (p : PendingCharter) (hshare : p.charter.mirrorShare ≤ 4)
    (hs : s.Inside) : (s.enforce p).Inside := by
  unfold State.enforce
  dsimp only
  have adopted : ∀ u : State, (u.withControl { u.control with
      status := .adopted, charter := p.charter, digest := p.digest, pendingCharter := none }).Inside →
      State.Inside (State.refreshAgreements ((u.withControl { u.control with
        status := .adopted, charter := p.charter, digest := p.digest, pendingCharter := none }).raise
          .control .charterAdopted p.sender.val (sliceDetail p.charter.serial))) :=
    fun u hu => hu.of_places rfl
  refine adopted _ ?_
  split
  · obtain ⟨hown, hmirror, hstore, hcontrol⟩ := resplit_empty s
    refine inside_of_empty hown hmirror ?_ ?_ hshare (fun _ h => nomatch h) ?_
    · exact congrArg Store.captureWrite hstore
    · exact congrArg Store.mirrorWrite hstore
    · simp only [withControl_store, withControl_control, hstore, hcontrol]
      exact (restartWrites_op _ _).trans hs.op
  · next hsame =>
    have hm : p.charter.mirrorShare = s.control.charter.mirrorShare := not_not.mp hsame
    have hown : ∀ c : Control, c.charter = p.charter → c.sizeCode = s.control.sizeCode →
        (s.withControl c).ownCap = s.ownCap ∧ (s.withControl c).mirrorCap = s.mirrorCap := by
      intro c hc hcode
      simp only [State.ownCap, State.mirrorCap, withControl_control, hc, hcode, hm, and_self]
    obtain ⟨hownCap, hmirrorCap⟩ := hown { s.control with
      status := .adopted, charter := p.charter, digest := p.digest, pendingCharter := none } rfl rfl
    exact
      { share := hshare, pendingShare := fun _ h => nomatch h
        own := by rw [hownCap]; exact hs.own
        mirror := by rw [hmirrorCap]; exact hs.mirror
        captureWrite := by rw [hownCap]; exact hs.captureWrite
        mirrorWrite := by rw [hmirrorCap]; exact hs.mirrorWrite
        op := hs.op }

/-- A charter that is read is in range (R166, R173). -/
theorem readCharter_inRange {body : List Byte} {c : Charter} (hread : readCharter body = .ok c) :
    c.inRange = true := by
  unfold readCharter at hread
  dsimp only at hread
  repeat' (split at hread; · cases hread)
  cases hread
  simp only [Charter.inRange, decide_eq_true_eq]
  omega

theorem mirrorShare_of_inRange {c : Charter} (h : c.inRange = true) : c.mirrorShare ≤ 4 := by
  simp only [Charter.inRange, decide_eq_true_eq] at h
  exact h.1

theorem judgeCharter_inside {s : State} (p : PendingCharter) (hshare : p.charter.mirrorShare ≤ 4)
    (hs : s.Inside) : (s.judgeCharter p).Inside := by
  unfold State.judgeCharter
  dsimp only
  split
  · have settled := (enforce_inside p hshare hs).of_places
      (settingsFrom_frame (s.enforce p) p.charter).places
    unfold State.adoptNow
    dsimp only
    split
    · exact settled.of_places (recompute_places _)
    · exact settled
  · split
    · exact hs
    · split
      · exact { hs with pendingShare := fun q hq => by cases hq; exact hshare }
      · split
        · exact hs.of_places rfl
        · exact hs

theorem takeRequest_inside {s : State} (k : StationId) (r : Request) (hs : s.Inside) :
    (s.takeRequest k r).Inside := by
  unfold State.takeRequest
  split
  · unfold State.takeCharter
    split
    · split
      · exact hs.of_places rfl
      · next c hread =>
        exact judgeCharter_inside _ (mirrorShare_of_inRange (readCharter_inRange hread)) hs
    · exact hs
  · refine hs.of_places ?_
    unfold State.takeCondition
    split
    · split <;> rfl
    · rfl
  · refine hs.of_places ?_
    unfold State.takeTimeMark
    split <;> rfl
  · refine hs.of_places ?_
    unfold State.takeProbe
    split <;> rfl
  · refine hs.of_places ?_
    unfold State.takeStop
    split <;> rfl
  · refine hs.of_places ?_
    unfold State.takeStart
    split <;> rfl
  · exact hs.of_places (takeArchiveMark_places _ _ _)
  · refine hs.of_places ?_
    unfold State.takeRecallRequest State.takeRecall
    split
    · split
      · exact judgeRecall_places _ _ _ _ _ _ _
      · rfl
    · rfl

theorem adoptPending_inside {s : State} (hs : s.Inside) : s.adoptPending.Inside := by
  unfold State.adoptPending
  split
  · exact hs
  · next p hp => exact enforce_inside p (hs.pendingShare p hp) hs

theorem fresh_inside (a b d : Bool) (id : StationId) (lanes : Nat) (code : BitVec 2)
    (mode : Option Mode) (uses : Nat) (q : List Instr) :
    (State.fresh a b d id lanes code mode uses q).Inside :=
  inside_of_empty rfl rfl rfl rfl (Nat.le_refl 4) (fun _ h => nomatch h) rfl

/-- Every operation keeps the places inside the store. -/
theorem inside_kept : KeptByOps State.Inside where
  pending _ _ hs := hs.of_places rfl
  stopN _ _ hs := hs.of_places rfl
  waitRaised _ hs := hs.of_places rfl
  waitReleased _ hs := hs.of_places rfl
  counts _ _ hs := hs.of_places (countsPass_places _ _)
  assertReset _ _ := fresh_inside _ _ _ _ _ _ _ _ _
  releaseReset _ _ _ _ _ := fresh_inside _ _ _ _ _ _ _ _ _
  settle _ hs := hs.of_places rfl
  grant _ hs := grantFrom_inside _ hs
  link _ _ h hs := hs.of_places h.places
  periodEnd _ _ hs := hs.of_places rfl
  clockBoundary _ _ _ hs := hs.of_places (clockBoundary_places _ _ _)
  ageing _ hs := hs.of_places (losePeers_places _)
  timeOutOrphans _ hs := hs.of_places rfl
  losePeers _ hs := hs.of_places (losePeers_places _)
  seatBoundary _ _ _ hs := hs.of_places (seatBoundary_places _ _ _)
  adoptPending _ hs := adoptPending_inside hs
  changeCondition _ hs := hs.of_places (changeCondition_places _)
  changeMode _ _ hs := hs.of_places (changeMode_places _ _)
  decideListen _ _ hs := hs.of_places (decideListen_places _ _)
  recompute _ hs := hs.of_places (recompute_places _)
  endFree _ _ hs := hs.of_places (endFree_places _ _)
  beginSlice _ hs := hs.of_places rfl
  linkBoundary _ hs := hs.of_places rfl
  startWindow _ hs := hs.of_places (startWindow_places _)
  windowSent _ _ _ _ _ hs := hs.of_places (windowSent_places _ _ _ _ _)
  windowAborted _ _ _ hs := hs.of_places (windowAborted_places _ _ _)
  startRecall _ hs := hs.of_places (startRecall_places _)
  recallSent _ hs := hs.of_places rfl
  recallAborted _ _ hs := hs.of_places rfl
  applyHeader _ _ _ _ hs := hs.of_places (applyHeader_places _ _ _)
  hearCondition _ _ hs := hs.of_places (hearCondition_places _ _)
  clockLeadIn _ _ _ hs := hs.of_places (clockLeadIn_frame _ _ _).places
  mirrorBlocks _ _ _ hs := hs.of_places (mirrorBlocks_places _ _ _)
  applyOpen _ _ _ hs := hs.of_places (applyOpen_frame _ _ _).places
  applyClose _ _ _ hs := hs.of_places (applyClose_frame _ _ _).places
  applyBeacon _ _ _ hs := hs.of_places (applyBeacon_frame _ _ _).places
  takeRequest _ _ _ hs := takeRequest_inside _ _ hs
  pauseEnd _ hs := hs.of_places (pauseEnd_places _)
  refreshTick _ hs := refreshTick_inside hs
  refreshEnd _ hs := refreshEnd_inside hs
  slotWritten _ _ _ _ _ _ _ hs := slotWritten_inside _ _ _ _ _ hs
  slotFetched _ _ _ _ _ hs := slotFetched_inside _ _ _ hs

/-! ### Stops -/

theorem exec_slotWriteEnd_outside {kind : PageKind} {page : Nat} {lane : Lane} {bytes : List Byte}
    {live : Bool} {s : State} (hop : s.store.op = some (.writeSlot kind page lane bytes live))
    (hpage : storePages s.control.sizeCode ≤ page) : exec .slotWriteEnd s = .fault .outsideStore := by
  have hout : s.pageExists page = false := decide_eq_false (Nat.not_lt.mpr hpage)
  simp only [exec, execSlotWriteEnd, hop, hout, Bool.false_eq_true, if_false]

theorem exec_slotReadEnd_outside {c : Claim} {page : Nat} (damage : List (Fin 512 × Byte)) {s : State}
    (hop : s.store.op = some (.readSlot c page)) (hpage : storePages s.control.sizeCode ≤ page) :
    exec (.slotReadEnd damage) s = .fault .outsideStore := by
  have hout : s.pageExists page = false := decide_eq_false (Nat.not_lt.mpr hpage)
  simp only [exec, execSlotReadEnd, hop, hout, Bool.false_eq_true, if_false]

/-- A command has a next state, or it is the end of a slot operation and faults with outsideStore, the
operation being on a page outside the store. -/
theorem exec_stops (c : Instr) (s : State) : (∃ t, exec c s = .next t) ∨
    (exec c s = .fault .outsideStore ∧ (c = .slotWriteEnd ∨ ∃ d, c = .slotReadEnd d) ∧
      StoreOp.inside s.store.op (storePages s.control.sizeCode) = false) := by
  cases c with
  | slotWriteEnd =>
    change (∃ t, execSlotWriteEnd s = .next t) ∨ (execSlotWriteEnd s = .fault .outsideStore ∧ _)
    unfold execSlotWriteEnd
    split
    · next kind page lane bytes live hop =>
      split
      · exact .inl ⟨_, rfl⟩
      · next hout =>
        exact .inr ⟨rfl, .inl rfl, by rw [hop]; exact eq_false_of_ne_true hout⟩
    all_goals exact .inl ⟨_, rfl⟩
  | slotReadEnd d =>
    change (∃ t, execSlotReadEnd d s = .next t) ∨ (execSlotReadEnd d s = .fault .outsideStore ∧ _)
    unfold execSlotReadEnd
    split
    · next hop =>
      split
      · exact .inl ⟨_, rfl⟩
      · next hout =>
        exact .inr ⟨rfl, .inr ⟨d, rfl⟩, by rw [hop]; exact eq_false_of_ne_true hout⟩
    all_goals exact .inl ⟨_, rfl⟩
  | _ => exact .inl ⟨_, rfl⟩

/-- From a state with its places inside the store no step faults. -/
theorem step_of_inside {s : State} (hs : s.Inside) : ∃ t, step s = .next t := by
  cases hp : s.pending with
  | nil => exact ⟨_, step_of_empty hp⟩
  | cons c rest =>
    rw [step_of_front hp]
    obtain hnext | ⟨-, -, hout⟩ := exec_stops c { s with pending := rest }
    · exact hnext
    · exact absurd hs.op (by rw [show StoreOp.inside s.store.op _ = false from hout]; decide)

/-- Settles O60: the clauses in order are the sizes, the shares, reset, the invariant, what follows from
it, and the stops. -/
theorem onlyOutsideStoreStops : Obligations.OnlyOutsideStoreStops := by
  refine ⟨by decide, fun code m hm => ⟨eight_ownCapacity code m, eight_mirrorCapacity code m,
      ownCapacity_add_mirrorCapacity code hm⟩,
    (placesInside_iff _).mpr (fresh_inside _ _ _ _ _ _ _ _ _), ?_, ?_, ?_,
    fun _ _ _ _ _ _ hop hpage => exec_slotWriteEnd_outside hop hpage,
    fun _ _ damage _ hop hpage => exec_slotReadEnd_outside damage hop hpage⟩
  · intro s t hs hstep
    exact (placesInside_iff t).mpr (inside_kept.step ((placesInside_iff s).mp hs) hstep)
  · exact fun s hs => step_of_inside ((placesInside_iff s).mp hs)
  · intro c s
    obtain ⟨t, ht⟩ | ⟨hfault, hcommand, -⟩ := exec_stops c s
    · exact ⟨fun r hr => (nomatch ht.symm.trans hr), fun r hr => (nomatch ht.symm.trans hr)⟩
    · refine ⟨fun r hr => (nomatch hfault.symm.trans hr), fun r hr => ?_⟩
      cases hfault.symm.trans hr
      exact ⟨rfl, hcommand⟩

end Sys2Proof.Machine
end


section
/-! SUPPORT. The ranges of single blocks (tables of chapters 1 to 10): each operation of a block keeps its
block's fields within their ranges. -/

namespace Sys2Proof.Machine

/-! ### Tables -/

theorem mem_allLanes (l : Lane) : l ∈ allLanes := by revert l; decide
theorem mem_allIds (k : StationId) : k ∈ allIds := by revert k; decide

@[simp] theorem look_put {α : Type} {n : Nat} (v : Vector α n) (k j : Fin n) (x : α) :
    look (put v k x) j = if j = k then x else look v j := by
  simp only [look, put, Fin.getElem_fin, Vector.getElem_set]
  by_cases h : j = k
  · simp [h]
  · rw [if_neg (fun hkj => h (Fin.ext hkj.symm)), if_neg h]

@[simp] theorem look_map {α β : Type} {n : Nat} (f : α → β) (v : Vector α n) (k : Fin n) :
    look (v.map f) k = f (look v k) := by
  simp [look]

/-! ### Clock -/

theorem Clock.inRange_iff (c : Clock) : c.inRange = true ↔ -40 ≤ c.trim ∧ c.trim ≤ 40 ∧
    -40 ≤ c.applied ∧ c.applied ≤ 40 ∧ c.samplePos ≤ 159 ∧ c.divider ≤ 1500 ∧ c.goodRun ≤ 8 ∧
    c.badRun ≤ 4 :=
  decide_eq_true_iff

theorem periodLength_le (a : Int) (i : Nat) : periodLength a i ≤ 1501 := by
  unfold periodLength
  split
  · split <;> decide
  · decide

theorem Clock.pass_inRange {c : Clock} (n : Nat) (hc : c.inRange = true) :
    (c.pass n).inRange = true := by
  have hlen := periodLength_le c.applied c.samplePos
  rw [Clock.inRange_iff] at hc ⊢
  simp only [Clock.pass]
  omega

theorem Clock.endPeriod_inRange {c : Clock} (hc : c.inRange = true) :
    c.endPeriod.inRange = true := by
  rw [Clock.inRange_iff] at hc ⊢
  simp only [Clock.endPeriod]
  split <;> omega

theorem Clock.turn_inRange {c : Clock} (i : Slice) (n : Nat) (hc : c.inRange = true) :
    (c.turn i n).inRange = true := by
  rw [Clock.inRange_iff] at hc ⊢
  simp only [Clock.turn]
  omega

theorem Clock.enter_inRange {c : Clock} (d : Discipline) (hc : c.inRange = true) :
    (c.enter d).inRange = true := by
  rw [Clock.inRange_iff] at hc ⊢
  simp only [Clock.enter]
  omega

theorem Clock.takeMark_inRange {c : Clock} (t : Slice) (d : Half) (ms : Word) (hc : c.inRange = true) :
    (c.takeMark t d ms).inRange = true := by
  unfold Clock.takeMark
  split <;> exact hc

theorem countGood_inRange {s : State} (k : StationId) (e : Int) (hc : s.clock.inRange = true) :
    (s.countGood k e).clock.inRange = true := by
  unfold State.countGood
  split
  · split
    · exact Clock.enter_inRange _ hc
    · rw [Clock.inRange_iff] at hc
      simp only [withClock_clock, Clock.inRange_iff]
      omega
  · rw [Clock.inRange_iff] at hc
    simp only [withClock_clock, Clock.inRange_iff]
    omega

theorem countBad_inRange {s : State} (k : StationId) (e : Int) (hc : s.clock.inRange = true) :
    (s.countBad k e).clock.inRange = true := by
  unfold State.countBad
  split
  · split
    · exact Clock.enter_inRange _ hc
    · rw [Clock.inRange_iff] at hc
      simp only [withClock_clock, Clock.inRange_iff]
      omega
  · rw [Clock.inRange_iff] at hc
    simp only [withClock_clock, Clock.inRange_iff]
    omega

theorem measureFrame_inRange {s : State} (l : LeadIn) (k : StationId) (i : Slice)
    (hc : s.clock.inRange = true) : (s.measureFrame l k i).clock.inRange = true := by
  unfold State.measureFrame
  dsimp only
  split
  · exact Clock.enter_inRange _ hc
  · have trimmed : (s.withClock { s.clock with
        trim := newTrim s.clock.trim (s.clock.measure l k).1 }).clock.inRange = true := by
      have hnew := newTrim_eq s.clock.trim (s.clock.measure l k).1
      rw [Clock.inRange_iff] at hc
      simp only [withClock_clock, Clock.inRange_iff]
      omega
    split
    · exact countGood_inRange _ _ trimmed
    · exact countBad_inRange _ _ trimmed

theorem clockLeadIn_inRange {s : State} (h : Header) (l : Option LeadIn)
    (hc : s.clock.inRange = true) : (s.clockLeadIn h l).clock.inRange = true := by
  cases l with
  | none => exact hc
  | some l =>
    change (s.clockFrame h l).clock.inRange = true
    unfold State.clockFrame
    split
    · split <;> exact hc
    · exact hc
    · split
      · exact measureFrame_inRange _ _ _ hc
      · exact hc
    · split
      · exact measureFrame_inRange _ _ _ hc
      · exact hc
    · split <;> exact hc

theorem followReference_inRange {s : State} (a b : Option StationId) (hc : s.clock.inRange = true) :
    (s.followReference a b).clock.inRange = true := by
  unfold State.followReference
  dsimp only
  split
  · exact hc
  · split
    · exact hc
    · exact Clock.enter_inRange _ hc
  · exact Clock.enter_inRange _ hc
  · exact Clock.enter_inRange _ hc
  · split
    · exact (Clock.enter_inRange .selfRef hc :)
    · exact hc

theorem presentReference_inRange {s : State} (n : Option StationId) (hc : s.clock.inRange = true) :
    (s.presentReference n).clock.inRange = true := by
  unfold State.presentReference
  dsimp only
  split
  · exact hc
  · split
    · exact followReference_inRange _ _ hc
    · exact hc

theorem clockBoundary_inRange {s : State} (p : Presented) (n : Nat) (hc : s.clock.inRange = true) :
    (s.clockBoundary p n).clock.inRange = true := by
  have turned := Clock.turn_inRange p.next n hc
  unfold State.clockBoundary State.takeStep
  dsimp only
  split
  · split
    · exact turned
    · exact (Clock.enter_inRange .tracking turned :)
  · exact turned

/-! ### Seat capture -/

theorem SeatCapture.inRange_iff (x : SeatCapture) : x.inRange = true ↔
    ∀ l, (look x.accs l).inRange = true ∧ (look x.faults l).inRange = true := by
  simp only [SeatCapture.inRange, List.all_eq_true, Bool.and_eq_true]
  exact ⟨fun h l => h l (mem_allLanes l), fun h l _ => h l⟩

theorem magnitude_le (x : Half) : magnitude x ≤ 32768 := by
  have hlow := BitVec.le_toInt x
  have hhigh := BitVec.toInt_lt (x := x)
  unfold magnitude
  omega

theorem Accumulator.take_inRange {a : Accumulator} (r : LaneAnswer) (ha : a.inRange = true) :
    (a.take r).inRange = true := by
  have hsample := magnitude_le r.sample
  simp only [Accumulator.inRange, decide_eq_true_eq] at ha
  unfold Accumulator.take
  split
  · next hroom =>
    change a.samples.length < 160 at hroom
    split
    · simp only [Accumulator.inRange, decide_eq_true_eq, List.length_append, List.length_singleton]
      split <;> omega
    · simp only [Accumulator.inRange, decide_eq_true_eq, List.length_append, List.length_singleton]
      omega
  · simpa only [Accumulator.inRange, decide_eq_true_eq] using ha

theorem SeatCapture.sample_inRange {x : SeatCapture} (lines : List (BitVec 50)) (l : Lane)
    (hx : x.inRange = true) : (x.sample lines l).inRange = true := by
  rw [SeatCapture.inRange_iff] at hx ⊢
  intro j
  refine ⟨?_, (hx j).2⟩
  simp only [SeatCapture.sample, look_put]
  split
  · exact Accumulator.take_inRange _ (hx l).1
  · exact (hx j).1

theorem sampleLanes_inRange {s : State} (lines : List (BitVec 50)) (hx : s.seat.inRange = true) :
    (s.sampleLanes lines).inRange = true := by
  unfold State.sampleLanes
  split
  · generalize s.seat = x at hx
    induction s.presentLanes generalizing x with
    | nil => exact hx
    | cons l ls ih => exact ih _ (SeatCapture.sample_inRange lines l hx)
  · exact hx

theorem satSucc_le {limit n : Nat} : satSucc limit n ≤ limit := by
  unfold satSucc; split <;> omega

theorem LaneFault.update_inRange {f : LaneFault} (b : Block) (hf : f.inRange = true) :
    (f.update b).1.inRange = true := by
  have hlen : satSucc 65535 f.length ≤ 65535 := satSucc_le
  simp only [LaneFault.inRange, decide_eq_true_eq] at hf
  unfold LaneFault.update
  split
  · dsimp only
    split
    · simp only [LaneFault.inRange, decide_eq_true_eq]; omega
    · split
      · exact (by decide : LaneFault.reset.inRange = true)
      · simp only [LaneFault.inRange, decide_eq_true_eq]; omega
  · split
    · dsimp only
      split
      · exact (by decide : LaneFault.reset.inRange = true)
      · simp only [LaneFault.inRange, decide_eq_true_eq]; omega
    · simp only [LaneFault.inRange, decide_eq_true_eq]; omega

theorem updateLane_seat (o : State) (p : Presented) (s : State) (l : Lane) :
    (o.updateLane p s l).seat = { s.seat with faults := put s.seat.faults l (o.faultOf p l).1 } := by
  unfold State.updateLane; dsimp only; split <;> rfl

theorem updateLane_inRange {o s : State} (p : Presented) (l : Lane) (ho : o.seat.inRange = true)
    (hs : s.seat.inRange = true) : (o.updateLane p s l).seat.inRange = true := by
  rw [updateLane_seat, SeatCapture.inRange_iff]
  rw [SeatCapture.inRange_iff] at ho hs
  intro j
  refine ⟨(hs j).1, ?_⟩
  simp only [look_put]
  split
  · exact LaneFault.update_inRange _ (ho l).2
  · exact (hs j).2

/-- Slices begin with cleared accumulators. -/
theorem cleared_inRange {x : SeatCapture} (b : Bool) (hx : x.inRange = true) :
    SeatCapture.inRange { x with
      capturing := b, accs := Vector.replicate 8 Accumulator.cleared } = true := by
  rw [SeatCapture.inRange_iff] at hx ⊢
  exact fun j => ⟨by rw [look_replicate]; rfl, (hx j).2⟩

/-! ### Recall service -/

/-- The bytes of the read buffer. -/
def Recall.used (r : Recall) : Nat := (r.buffer.map fun i => i.item.size).sum

theorem Recall.roomLeft_eq (r : Recall) : r.roomLeft = 19940 - r.used := rfl

/-- As `Recall.inRange`. -/
structure Recall.Within (r : Recall) : Prop where
  queue : r.queue.length ≤ 8
  used : r.used ≤ 19940
  claim : r.claim.isSome = true → r.readLive = false ∧ r.used + 336 ≤ 19940
  live : r.readLive = true → r.used + 336 ≤ 19940

theorem Recall.inRange_iff (r : Recall) : r.inRange = true ↔ r.Within := by
  simp only [Recall.inRange, decide_eq_true_eq]
  exact ⟨fun ⟨h1, h2, h3, h4⟩ => ⟨h1, h2, h3, h4⟩, fun ⟨h1, h2, h3, h4⟩ => ⟨h1, h2, h3, h4⟩⟩

theorem Recall.readLive_of_none {r : Recall} (h : r.inFlight = none) : r.readLive = false := by
  simp only [Recall.readLive, h]

@[simp] theorem Recall.dropRead_readLive (r : Recall) : r.dropRead.readLive = false := by
  unfold Recall.dropRead Recall.readLive
  cases r.inFlight <;> rfl

/-- Fewer items, and nothing claimed or read that was not before. -/
theorem Recall.Within.fewer {r q : Recall} (h : r.Within) (hqueue : q.queue.length ≤ r.queue.length)
    (hused : q.used ≤ r.used) (hclaim : q.claim.isSome = true → r.claim.isSome = true)
    (hlive : q.readLive = true → r.readLive = true) : q.Within where
  queue := hqueue.trans h.queue
  used := hused.trans h.used
  claim hc := by
    obtain ⟨hnot, hroom⟩ := h.claim (hclaim hc)
    refine ⟨?_, by omega⟩
    cases hq : q.readLive with
    | false => rfl
    | true => rw [hlive hq] at hnot; exact hnot
  live hq := by
    have := h.live (hlive hq)
    omega

theorem used_filter_le (r : Recall) (p : BufferItem → Bool) :
    Recall.used { r with buffer := r.buffer.filter p } ≤ r.used :=
  List.Sublist.sum_le_sum (List.Sublist.map _ List.filter_sublist) (fun _ _ => Nat.zero_le _)

@[simp] theorem Recall.produce_used (r : Recall) (p : ReadPos) (i : RecallItem) (n : Place) :
    (r.produce p i n).used = r.used + i.size := by
  simp [Recall.produce, Recall.used]

theorem Recall.doneItem_size (r : Recall) (id : RecallId) : (r.doneItem id).size = 8 := by
  unfold Recall.doneItem
  split <;> rfl

/-- Production goes on only while the room allows (R144, R147). -/
theorem Recall.pumpFrom_within (n : Nat) {r : Recall} (h : r.Within) (hclaim : r.claim = none)
    (hlive : r.readLive = false) : (Recall.pumpFrom n r).Within := by
  induction n generalizing r with
  | zero => exact h
  | succ n ih =>
    unfold Recall.pumpFrom
    split
    · exact h
    · next p _ =>
      split
      · split
        · next hroom =>
          rw [Recall.roomLeft_eq] at hroom
          exact { h with claim := fun _ => ⟨hlive, by change r.used + 336 ≤ 19940; omega⟩ }
        · exact h
      · split
        · exact h
        · split
          · next hroom =>
            rw [Recall.roomLeft_eq] at hroom
            have hmade := Recall.produce_used r p (r.doneItem p.request) .done
            rw [Recall.doneItem_size] at hmade
            refine ih ⟨h.queue, ?_, fun hc => ?_, fun hl => ?_⟩ hclaim hlive
            · change (r.produce p (r.doneItem p.request) .done).used ≤ 19940
              omega
            · exact nomatch (hclaim ▸ hc : (none : Option Claim).isSome = true)
            · exact nomatch hlive.symm.trans hl
          · exact h

theorem Recall.pump_within {r : Recall} (h : r.Within) : r.pump.Within := by
  unfold Recall.pump
  split
  · next hgo => exact Recall.pumpFrom_within _ h hgo.2.1 hgo.2.2
  · exact h

theorem Recall.readEnded_within {r : Recall} {item : Option RecallItem}
    (hitem : ∀ i, item = some i → i.size ≤ 336) (h : r.Within) : (r.readEnded item).Within := by
  unfold Recall.readEnded
  split
  · exact h
  · next f hf =>
    have ended : Recall.Within { r with inFlight := none } :=
      h.fewer (Nat.le_refl _) (Nat.le_refl _) id fun hl => nomatch hl
    dsimp only
    split
    · exact ended
    · next hkeep =>
      split
      · exact ended
      · next t l _ =>
        have hlive : r.readLive = true := by
          simp only [Recall.readLive, hf, hkeep, Bool.not_false]
        have hroom := h.live hlive
        have hclaim : r.claim.isSome = false := by
          refine Bool.eq_false_iff.mpr fun hc => ?_
          exact nomatch (h.claim hc).1.symm.trans hlive
        have hsize : (item.getD (.gap (flagBit 8 true l.val) t t .corrupt)).size ≤ 336 := by
          cases item with
          | none => exact (by decide : 16 ≤ 336)
          | some i => exact hitem i rfl
        refine ⟨h.queue, ?_, fun hc => (nomatch hclaim.symm.trans hc), fun hl => nomatch hl⟩
        rw [Recall.produce_used]
        change r.used + _ ≤ 19940
        omega

theorem Recall.accept_within {r : Recall} (id : RecallId) (hqueue : r.queue.length < 8)
    (h : r.Within) : (r.accept id).Within := by
  have joined : Recall.Within
      { r with queue := r.queue ++ [{ id := id, blocksSent := 0, gapsSent := 0 }] } :=
    { h with queue := by simpa using hqueue }
  unfold Recall.accept
  dsimp only
  split
  · exact { joined with }
  · split
    · exact { joined with }
    · exact joined

theorem Recall.hand_within {r : Recall} (h : r.Within) : r.hand.Within := by
  refine h.fewer (Nat.le_refl _) (Nat.le_of_eq ?_) id id
  simp only [Recall.used, Recall.hand, List.map_map]
  rfl

theorem Recall.endReading_within {r : Recall} (h : r.Within) : r.endReading.Within :=
  h.fewer (Nat.le_refl _) (Nat.le_refl _) (fun hc => nomatch hc) id

theorem Recall.sent_within {r : Recall} (h : r.Within) : r.sent.Within := by
  refine h.fewer ?_ (used_filter_le r _) id id
  simp only [Recall.sent, List.length_map]
  exact List.length_filter_le _ _

theorem Recall.aborted_within {r : Recall} (h : r.Within) : r.aborted.Within :=
  h.fewer (Nat.le_refl _) (Nat.zero_le _) id fun hl => nomatch (r.dropRead_readLive.symm.trans hl)

theorem Recall.purge_within {r : Recall} (k : StationId) (h : r.Within) : (r.purge k).Within := by
  unfold Recall.purge
  dsimp only
  split
  · exact h.fewer (List.length_filter_le _ _) (Nat.zero_le _) (fun hc => nomatch hc)
      fun hl => nomatch (r.dropRead_readLive.symm.trans hl)
  · exact h.fewer (List.length_filter_le _ _) (Nat.le_refl _) id id

theorem Recall.fault_within {r : Recall} (b : Bool) (h : r.Within) : (r.fault b).Within :=
  Recall.pump_within (h.fewer (Nat.le_refl _) (used_filter_le r _) (fun hc => nomatch hc)
    fun hl => nomatch (r.dropRead_readLive.symm.trans hl))

theorem Recall.hold_within {r : Recall} (b : Bool) (h : r.Within) : (r.hold b).Within := by
  refine Recall.pump_within (h.fewer (Nat.le_refl _) (Nat.le_refl _) (fun hc => ?_) id)
  cases b with
  | true => exact hc
  | false => exact nomatch hc

/-! ### Runs of the mirror ring (R110, R111) -/

theorem loseFirst_length (runs : List Run) : (loseFirst runs).length ≤ runs.length := by
  cases runs with
  | nil => exact Nat.le_refl _
  | cons r rs =>
    rw [loseFirst]
    split
    · exact Nat.le_succ _
    · exact Nat.le_refl _

theorem loseLast_length (runs : List Run) : (loseLast runs).length ≤ runs.length := by
  induction runs with
  | nil => exact Nat.le_refl _
  | cons r rs ih =>
    cases rs with
    | nil =>
      rw [loseLast]
      split <;> simp
    | cons q rs => exact Nat.succ_le_succ ih

theorem beginOwn_runs (s : State) (p : OwnPage) : (s.beginOwn p).rings.runs = s.rings.runs := by
  unfold State.beginOwn
  refine (makeRoomOwn_rings _).2.2.trans ?_
  split
  · rfl
  · split
    · rfl
    · exact restartOwn_runs _ _

theorem beginMirror_runs (s : State) (p : MirrorPage) :
    (s.beginMirror p).rings.runs.length ≤ s.rings.runs.length := by
  have room : ∀ u : State, u.rings.runs.length ≤ s.rings.runs.length →
      u.makeRoomMirror.rings.runs.length ≤ s.rings.runs.length := by
    intro u hu
    rw [(makeRoomMirror_rings u).2.2]
    split
    · exact hu
    · exact (loseFirst_length _).trans hu
  have restarted : (s.restartMirror causeBackwardMirror).rings.runs.length ≤ s.rings.runs.length := by
    rw [restartMirror_runs]; exact Nat.zero_le _
  unfold State.beginMirror
  refine room _ ?_
  split
  · exact Nat.le_refl _
  · split
    · exact restarted
    · split
      · split
        · exact restarted
        · unfold State.handover
          split
          · exact Nat.le_refl _
          · exact loseLast_length _
      · exact Nat.le_refl _

theorem giveUpOldestRun_runs (s : State) : s.giveUpOldestRun.rings.runs = s.rings.runs.tail := by
  unfold State.giveUpOldestRun
  split
  · next hnil => rw [hnil, List.tail_nil]
  · next r rs hcons => rw [(foldl_judge_rings _ _).2.2, hcons]; rfl

theorem completeMirror_runs {s : State} (p : MirrorPage) (n : Nat) (h : s.rings.runs.length ≤ 4) :
    (s.completeMirror p n).rings.runs.length ≤ 4 := by
  unfold State.completeMirror
  dsimp only
  split
  · simpa [extendRuns] using h
  · simp only [withRings_rings, List.length_append, closeRuns, List.length_map, List.length_singleton]
    split
    · next hroom => exact hroom
    · rw [giveUpOldestRun_runs, List.length_tail]
      omega

end Sys2Proof.Machine
end


section
/-! SUPPORT. The ranges of the whole state: every block's operation, and so every step, keeps every field
with a range within it. The roster's silence counts leave their range between the aging and the losses of
a boundary (R64, R65), so they are carried apart from the other blocks. -/

namespace Sys2Proof.Machine

/-! ### The ranges, block by block -/

/-- As `Spans.inRange`. -/
structure Spans.Within (x : Spans) : Prop where
  table : x.table.length ≤ 160
  outbox : x.outbox.length ≤ 64
  custody : x.custody.length ≤ 4
  detectors : ∀ l, (look x.detectors l).inRange = true
  entries : ∀ e ∈ x.table, e.inRange = true

theorem Spans.inRange_iff (x : Spans) : x.inRange = true ↔ x.Within := by
  simp only [Spans.inRange, Bool.and_eq_true, decide_eq_true_eq, List.all_eq_true]
  exact ⟨fun ⟨⟨⟨h1, h2, h3⟩, h4⟩, h5⟩ => ⟨h1, h2, h3, fun l => h4 l (mem_allLanes l), h5⟩,
    fun ⟨h1, h2, h3, h4, h5⟩ => ⟨⟨⟨h1, h2, h3⟩, fun l _ => h4 l⟩, h5⟩⟩

/-- As `Control.inRange`. -/
structure Control.Within (c : Control) : Prop where
  charter : c.charter.inRange = true
  pending : ∀ p, c.pendingCharter = some p → p.charter.inRange = true
  listen : c.listen ≤ 300
  listening : c.mode = some .listen → c.listen < 300

theorem Control.inRange_iff (c : Control) : c.inRange = true ↔ c.Within := by
  have pending : c.pendingInRange = true ↔
      ∀ p, c.pendingCharter = some p → p.charter.inRange = true := by
    unfold Control.pendingInRange
    cases c.pendingCharter <;> simp
  simp only [Control.inRange, Bool.and_eq_true, decide_eq_true_eq, pending]
  exact ⟨fun ⟨⟨h1, h2⟩, h3, h4⟩ => ⟨h1, h2, h3, h4⟩, fun ⟨h1, h2, h3, h4⟩ => ⟨⟨h1, h2⟩, h3, h4⟩⟩

theorem Store.inRange_iff (x : Store) : x.inRange = true ↔ x.pauseTime ≤ 4800 ∧ x.initDone ≤ 8 ∧
    x.debt ≤ 8 ∧ x.peak ≤ 8 ∧ x.capture.length ≤ 2 ∧ x.mirror.length ≤ 2 ∧ x.reinits ≤ 65535 :=
  decide_eq_true_iff

theorem NoticeQueue.inRange_iff (q : NoticeQueue) :
    q.inRange = true ↔ q.entries.length ≤ 64 ∧ q.dropped ≤ 255 ∧ q.droppedSince ≤ 255 :=
  decide_eq_true_iff

/-- Every range but the roster's. -/
structure State.Bounded (s : State) : Prop where
  clock : s.clock.inRange = true
  seat : s.seat.inRange = true
  spans : s.spans.Within
  store : s.store.inRange = true
  server : s.server.Within
  control : s.control.Within
  notices : s.notices.inRange = true
  runs : s.rings.runs.length ≤ 4

/-- What the roster's ranges read: the station's ID, and the state and silence count of each entry. -/
def State.peers (s : State) : StationId × (StationId → PeerState × Nat) :=
  (s.control.id, fun k => ((look s.roster.entries k).state, (look s.roster.entries k).silence))

/-- As `State.inRange`. -/
structure State.Within (s : State) : Prop where
  bounded : s.Bounded
  roster : s.roster.inRange s.control.id = true

theorem inRange_iff (s : State) : s.inRange = true ↔ s.Within := by
  simp only [State.inRange, Bool.and_eq_true, decide_eq_true_eq, Spans.inRange_iff,
    Recall.inRange_iff, Control.inRange_iff]
  exact ⟨fun ⟨⟨⟨⟨⟨⟨⟨⟨h1, h2⟩, h3⟩, h4⟩, h5⟩, h6⟩, h7⟩, h8⟩, h9⟩ =>
      ⟨⟨h1, h2, h4, h5, h6, h7, h8, h9⟩, h3⟩,
    fun ⟨⟨h1, h2, h4, h5, h6, h7, h8, h9⟩, h3⟩ => ⟨⟨⟨⟨⟨⟨⟨⟨h1, h2⟩, h3⟩, h4⟩, h5⟩, h6⟩, h7⟩, h8⟩, h9⟩⟩

theorem Roster.inRange_iff (r : Roster) (id : StationId) : r.inRange id = true ↔
    (look r.entries id).state ≠ .present ∧
    ∀ k, (look r.entries k).silence ≤ 201 ∧
      ((look r.entries k).state = .present → (look r.entries k).silence ≤ 200) := by
  simp only [Roster.inRange, RosterEntry.inRange, Bool.and_eq_true, decide_eq_true_eq,
    List.all_eq_true]
  exact ⟨fun ⟨h1, h2⟩ => ⟨h1, fun k => h2 k (mem_allIds k)⟩, fun ⟨h1, h2⟩ => ⟨h1, fun k _ => h2 k⟩⟩

theorem roster_inRange_of_peers {s t : State} (h : t.peers = s.peers)
    (hs : s.roster.inRange s.control.id = true) : t.roster.inRange t.control.id = true := by
  simp only [State.peers, Prod.mk.injEq, funext_iff] at h
  obtain ⟨hid, hentries⟩ := h
  rw [Roster.inRange_iff] at hs ⊢
  obtain ⟨hown, hall⟩ := hs
  refine ⟨?_, fun k => ?_⟩
  · rw [hid, (hentries _).1]
    exact hown
  · rw [(hentries k).1, (hentries k).2]
    exact hall k

theorem State.Within.mk_of_peers {s t : State} (hs : s.Within) (hbounded : t.Bounded)
    (hpeers : t.peers = s.peers) : t.Within :=
  ⟨hbounded, roster_inRange_of_peers hpeers hs.roster⟩

/-! ### One block's part of the ranges -/

namespace State.Bounded

variable {s t : State}

theorem of_spans (hs : s.Bounded) (hframe : OnlySpans s t) (h : t.spans.Within) : t.Bounded := by
  obtain ⟨_, _, rfl⟩ := hframe
  exact { hs with spans := h }

theorem of_clock (hs : s.Bounded) (hframe : OnlyClock s t) (h : t.clock.inRange = true) :
    t.Bounded := by
  obtain ⟨_, _, rfl⟩ := hframe
  exact { hs with clock := h }

theorem of_rings (hs : s.Bounded) (hframe : OnlyRings s t) (h : t.rings.runs.length ≤ 4) :
    t.Bounded := by
  obtain ⟨_, _, rfl⟩ := hframe
  exact { hs with runs := h }

theorem of_store (hs : s.Bounded) (hframe : OnlyStore s t) (h : t.store.inRange = true) :
    t.Bounded := by
  obtain ⟨_, _, rfl⟩ := hframe
  exact { hs with store := h }

theorem of_link (hs : s.Bounded) (hframe : OnlyLink s t) : t.Bounded := by
  obtain ⟨_, rfl⟩ := hframe
  exact { hs with }

/-- The notices raised are not bounded. -/
theorem raise (hs : s.Bounded) (b : Raiser) (k : NoticeKind) (n : Nat) (d : Half) :
    (s.raise b k n d).Bounded := { hs with }

theorem pump (hs : s.Bounded) : s.pump.Bounded := { hs with server := Recall.pump_within hs.server }

/-- The ranges of the charter in force bound the span detectors' limits (R166). -/
theorem limits (hs : s.Bounded) : s.control.charter.lossSlices ≤ 200 ∧
    s.control.charter.orphanSlices ≤ 1000 ∧ s.control.charter.nOnset ≤ 16 ∧
    s.control.charter.nHang ≤ 500 := by
  have h := hs.control.charter
  simp only [Charter.inRange, decide_eq_true_eq] at h
  exact h.2

end State.Bounded

/-! ### Notices -/

theorem NoticeQueue.join_inRange (b : Bool) {q : NoticeQueue} (n : Notice) (hq : q.inRange = true) :
    (q.join b n).inRange = true := by
  have hdropped : satSucc 255 q.dropped ≤ 255 := satSucc_le
  have hsince : satSucc 255 q.droppedSince ≤ 255 := satSucc_le
  rw [NoticeQueue.inRange_iff] at hq ⊢
  unfold NoticeQueue.join
  split
  · next hroom =>
    change q.entries.length < 64 at hroom
    simp only [List.length_append, List.length_singleton]
    omega
  · dsimp only
    split <;> omega

theorem settleNotices_bounded {s : State} (hs : s.Bounded) : s.settleNotices.Bounded := by
  refine { hs with notices := ?_ }
  change NoticeQueue.inRange (List.foldl _ _ _) = true
  generalize (mergeRaised s.raised.length s.freeUses s.raised).1 = order
  have hq := hs.notices
  generalize s.notices = q at hq ⊢
  induction order generalizing q with
  | nil => exact hq
  | cons n order ih => exact ih _ (NoticeQueue.join_inRange _ n hq)

/-! ### Spans -/

theorem setDetector_bounded {s : State} (l : Lane) {d : Detector} (hd : d.inRange = true)
    (hs : s.Bounded) : (s.setDetector l d).Bounded := by
  refine { hs with spans := { hs.spans with detectors := fun j => ?_ } }
  simp only [setDetector_spans, look_put]
  split
  · exact hd
  · exact hs.spans.detectors j

theorem announce_bounded {s : State} (i : SpanItem) (hs : s.Bounded) : (s.announce i).Bounded := by
  have houtbox := hs.spans.outbox
  refine hs.of_spans (announce_frame s i) ?_
  unfold State.announce
  split
  · exact { hs.spans with outbox := (by decide : 1 ≤ 64) }
  · next d rest hcons =>
    rw [hcons, List.length_cons] at houtbox
    split
    · next hroom =>
      change s.spans.outbox.length < 64 at hroom
      exact { hs.spans with outbox := by simpa using hroom }
    · exact { hs.spans with outbox := by simpa using houtbox }

/-- Any entries taken out. -/
theorem table_filter_within {x : Spans} (p : SpanEntry → Bool) (hx : x.Within) :
    Spans.Within { x with table := x.table.filter p } :=
  { hx with
    table := (List.length_filter_le _ _).trans hx.table
    entries := fun e he => hx.entries e (List.mem_of_mem_filter he) }

/-- Any entries changed to ones in range. -/
theorem table_map_within {x : Spans} {f : SpanEntry → SpanEntry}
    (hf : ∀ e, e.inRange = true → (f e).inRange = true) (hx : x.Within) :
    Spans.Within { x with table := x.table.map f } where
  table := by simpa using hx.table
  outbox := hx.outbox
  custody := hx.custody
  detectors := hx.detectors
  entries e he := by
    obtain ⟨e', he', rfl⟩ := List.mem_map.mp he
    exact hf e' (hx.entries e' he')

theorem updateEntry_within {x : Spans} (k : SpanKey) {f : SpanEntry → SpanEntry}
    (hf : ∀ e, e.inRange = true → (f e).inRange = true) (hx : x.Within) :
    Spans.Within { x with table := updateEntry x.table k f } := by
  refine table_map_within (fun e he => ?_) hx
  split
  · exact hf e he
  · exact he

theorem evict_bounded {s : State} (hs : s.Bounded) : s.evict.Bounded := by
  unfold State.evict
  split
  · exact { hs with spans := table_filter_within _ hs.spans }
  · split
    · exact { hs with spans := table_filter_within _ hs.spans }
    · exact hs

theorem insertEntry_bounded {s : State} {e : SpanEntry} (he : e.inRange = true) (hs : s.Bounded) :
    (s.insertEntry e).Bounded := by
  have inserted : ∀ u : State, u.Bounded → State.Bounded
      (if u.spans.table.length < Config.spanCapacity then
        u.withSpans { u.spans with table := u.spans.table ++ [e] } else u) := by
    intro u hu
    split
    · next hroom =>
      change u.spans.table.length < 160 at hroom
      refine { hu with spans := { hu.spans with table := ?_, entries := fun x hx => ?_ } }
      · simpa using hroom
      · simp only [withSpans_spans, List.mem_append, List.mem_singleton] at hx
        obtain hx | rfl := hx
        · exact hu.spans.entries x hx
        · exact he
    · exact hu
  refine inserted _ ?_
  split
  · exact hs
  · exact evict_bounded hs

theorem openSpan_bounded {s : State} (l : Lane) (t : Slice) (c : Condition) (b : Bool)
    (hs : s.Bounded) : (s.openSpan l t c b).Bounded :=
  announce_bounded _ (insertEntry_bounded rfl hs)

theorem tryOpen_bounded {s : State} (l : Lane) (t : Slice) (c : Condition) (b : Bool) (u : Slice)
    (hs : s.Bounded) : (s.tryOpen l t c b u).Bounded := by
  unfold State.tryOpen
  split
  · exact setDetector_bounded l rfl hs
  · exact setDetector_bounded l rfl (openSpan_bounded l t c b hs)

theorem closeOwn_bounded {s : State} (k : SpanKey) (t : Slice) (c : CloseCause) (hs : s.Bounded) :
    (s.closeOwn k t c).Bounded := by
  unfold State.closeOwn
  split
  · exact hs
  · exact announce_bounded _ { hs with spans := updateEntry_within k (fun _ _ => rfl) hs.spans }

theorem onsetAt_bounded {s : State} (l : Lane) (b : Block) (n : Nat) (t : Slice) (hs : s.Bounded) :
    (s.onsetAt l b n t).Bounded := by
  unfold State.onsetAt
  split
  · exact tryOpen_bounded l t _ _ _ hs
  · next hbelow =>
    refine setDetector_bounded l (decide_eq_true ?_) hs
    have := hs.limits
    omega

theorem hangAt_bounded {s : State} (l : Lane) (n : Nat) (t : Slice) (k : SpanKey) (hs : s.Bounded) :
    (s.hangAt l n t k).Bounded := by
  unfold State.hangAt
  split
  · exact setDetector_bounded l rfl (closeOwn_bounded k t _ hs)
  · next hbelow =>
    refine setDetector_bounded l (decide_eq_true ?_) hs
    have := hs.limits
    omega

theorem evaluate_bounded {s : State} (l : Lane) (b : Block) (hs : s.Bounded) :
    (s.evaluate l b).Bounded := by
  unfold State.evaluate
  split
  · exact hs
  · exact hs
  · split
    · exact onsetAt_bounded l b _ _ hs
    · exact hs
  · split
    · exact onsetAt_bounded l b _ _ hs
    · exact setDetector_bounded l rfl hs
  · split
    · exact setDetector_bounded l rfl hs
    · exact hangAt_bounded l _ _ _ hs
  · split
    · exact setDetector_bounded l rfl hs
    · exact hangAt_bounded l _ _ _ hs

theorem closeHeld_bounded {s : State} (l : Lane) (c : CloseCause) (hs : s.Bounded) :
    (s.closeHeld l c).Bounded := by
  unfold State.closeHeld
  split
  · exact closeOwn_bounded _ _ _ hs
  · exact closeOwn_bounded _ _ _ hs
  all_goals exact hs

theorem faultChange_bounded {s : State} (l : Lane) (c : FaultChange) (hs : s.Bounded) :
    (s.faultChange l c).Bounded := by
  unfold State.faultChange
  split
  · exact hs
  · split
    · exact hs
    · exact setDetector_bounded l rfl (closeHeld_bounded l _ hs)
  · split
    · exact setDetector_bounded l rfl hs
    · exact hs

theorem detectChange_bounded {s : State} (l : Lane) (c : Charter) (hs : s.Bounded) :
    (s.detectChange l c).Bounded := by
  unfold State.detectChange
  dsimp only
  split
  · exact setDetector_bounded l rfl (closeHeld_bounded l _ hs)
  · split
    · exact setDetector_bounded l (by split <;> rfl) hs
    · exact hs

theorem splitLane_bounded {s : State} (l : Lane) (p : Split) (hs : s.Bounded) :
    (s.splitLane l p).Bounded := by
  unfold State.splitLane
  split
  · dsimp only
    split
    · exact setDetector_bounded l rfl (closeOwn_bounded _ _ _ hs)
    · exact tryOpen_bounded l _ _ _ _ (closeOwn_bounded _ _ _ hs)
  · exact setDetector_bounded l rfl (closeOwn_bounded _ _ _ hs)
  · exact setDetector_bounded l rfl hs
  all_goals exact hs

theorem detectorLane_bounded {s : State} (l : Lane) (b : Block) (c : FaultChange)
    (n : Option Charter) (p : Option Split) (hs : s.Bounded) :
    (s.detectorLane l b c n p).Bounded := by
  have changed : State.Bounded (if c = .none then s.evaluate l b else s.faultChange l c) := by
    split
    · exact evaluate_bounded l b hs
    · exact faultChange_bounded l c hs
  unfold State.detectorLane
  cases n with
  | none =>
    cases p with
    | none => exact changed
    | some p => exact splitLane_bounded l p changed
  | some n =>
    cases p with
    | none => exact detectChange_bounded l n changed
    | some p => exact splitLane_bounded l p (detectChange_bounded l n changed)

theorem detectOnly_bounded {s : State} (c : Option Charter) (l : Lane) (hs : s.Bounded) :
    (State.detectOnly c s l).Bounded := by
  cases c with
  | none => exact hs
  | some c => exact detectChange_bounded l c hs

theorem settingsFrom_bounded {s : State} (c : Charter) (hs : s.Bounded) :
    (s.settingsFrom c).Bounded :=
  foldl_keeps (fun _ l h => setDetector_bounded l (by split <;> rfl) h) _ hs

theorem entryOfItem_inRange (i : SpanItem) (k : StationId) : (entryOfItem i k).inRange = true := by
  unfold entryOfItem SpanEntry.inRange
  cases i.form <;> rfl

theorem insertOpen_bounded {s : State} (k : StationId) (i : SpanItem) (hs : s.Bounded) :
    (s.insertOpen k i).Bounded := by
  unfold State.insertOpen
  split
  · exact insertEntry_bounded (entryOfItem_inRange i k) hs
  · split
    · exact insertEntry_bounded (entryOfItem_inRange i k)
        { hs with spans := updateEntry_within _ (fun _ _ => rfl) hs.spans }
    · exact hs

theorem applyOpen_bounded {s : State} (k : StationId) (i : SpanItem) (hs : s.Bounded) :
    (s.applyOpen k i).Bounded := by
  unfold State.applyOpen
  split
  · split
    · exact hs
    · exact insertOpen_bounded k i hs
  · exact hs

theorem applyBeaconEntry_bounded {s : State} (k : StationId) (i : SpanItem) (hs : s.Bounded) :
    (s.applyBeaconEntry k i).Bounded := by
  unfold State.applyBeaconEntry
  split
  · split
    · exact insertOpen_bounded k i hs
    · split
      · exact { hs with spans := updateEntry_within _ (fun _ _ => rfl) hs.spans }
      · exact hs
      · exact hs
  · exact hs

theorem reopenAfterCustody_bounded {s : State} (e : SpanEntry) (t : Slice) (hs : s.Bounded) :
    (s.reopenAfterCustody e t).Bounded := by
  unfold State.reopenAfterCustody
  dsimp only
  split
  · split
    · exact tryOpen_bounded _ _ _ _ _ hs
    · exact hs
  · split
    · exact setDetector_bounded _ rfl hs
    · exact hs
  all_goals exact hs

theorem applyClose_bounded {s : State} (k : StationId) (i : SpanItem) (hs : s.Bounded) :
    (s.applyClose k i).Bounded := by
  unfold State.applyClose
  split
  · exact hs
  · next endSlice cause _ =>
    split
    · exact insertEntry_bounded (entryOfItem_inRange i k) hs
    · split
      · have closed : State.Bounded (s.withSpans { s.spans with
            table := updateEntry s.spans.table i.key fun x => x.close endSlice cause k }) :=
          { hs with spans := updateEntry_within _ (fun _ _ => rfl) hs.spans }
        dsimp only
        split
        · exact reopenAfterCustody_bounded _ _ closed
        · exact closed
      · exact hs

theorem orphan_inRange (k : StationId) (t : Option Slice) {e : SpanEntry} (he : e.inRange = true) :
    (orphan k t e).inRange = true := by
  unfold orphan
  split
  · rfl
  · exact he

theorem closeOld_inRange (k : StationId) (t : Option Slice) (self : StationId) {e : SpanEntry}
    (he : e.inRange = true) : (closeOld k t self e).inRange = true := by
  unfold closeOld
  split
  · rfl
  · exact he

theorem timeOut_inRange (limit : Nat) (self : StationId) {e : SpanEntry} (he : e.inRange = true) :
    (timeOut limit self e).inRange = true := by
  unfold timeOut
  split
  · split
    · rfl
    · exact he
  all_goals exact he

/-- An orphan count raised above its range has reached the limit, which is at most 1,000 (R96). -/
theorem timeOut_ageOrphan_inRange {limit : Nat} (self : StationId) {e : SpanEntry}
    (hlimit : limit ≤ 1000) (he : e.inRange = true) :
    (timeOut limit self (ageOrphan e)).inRange = true := by
  cases hstatus : e.status with
  | orphaned n t =>
    simp only [ageOrphan, hstatus, timeOut]
    split
    · rfl
    · exact decide_eq_true (by omega)
  | opened => simpa only [ageOrphan, hstatus, timeOut] using he
  | closed t c => simpa only [ageOrphan, hstatus, timeOut] using he

theorem timeOutOrphans_bounded {s : State} (hs : s.Bounded) : s.timeOutOrphans.Bounded :=
  { hs with spans := table_map_within (fun _ he => timeOut_inRange _ _ he) hs.spans }

theorem ageing_bounded {s : State} (hs : s.Bounded) :
    s.ageOrphans.timeOutOrphans.ageEntries.Bounded := by
  have aged := table_map_within
    (fun e he => timeOut_ageOrphan_inRange s.control.id hs.limits.2.1 (e := e) he) hs.spans
  refine { hs with spans := ?_ }
  simp only [State.ageEntries, State.timeOutOrphans, State.ageOrphans, withRoster_spans,
    withSpans_spans, withSpans_control, List.map_map]
  exact aged

theorem lossReport_bounded {s : State} (k : StationId) (t : Option Slice) (hs : s.Bounded) :
    (s.lossReport k t).Bounded :=
  { hs with spans := table_map_within (fun _ he => orphan_inRange k t he) hs.spans }

theorem custodyClose_bounded {s : State} (e : SpanEntry) (t : Slice) (hs : s.Bounded) :
    (s.custodyClose e t).Bounded :=
  announce_bounded _ { hs with spans := updateEntry_within _ (fun _ _ => rfl) hs.spans }

theorem addCustody_length {records : List CustodyRecord} (r : CustodyRecord)
    (h : records.length ≤ 4) : (addCustody records r).length ≤ 4 := by
  have hothers := List.length_filter_le (fun x => decide (x.peer ≠ r.peer)) records
  unfold addCustody
  dsimp only
  rw [List.length_append, List.length_singleton]
  split
  · next hroom =>
    change _ < 4 at hroom
    omega
  · rw [List.length_drop]
    omega

theorem custodyReport_bounded {s : State} (k : StationId) (j t : Option Slice) (hs : s.Bounded) :
    (s.custodyReport k j t).Bounded := by
  have closed := foldl_keeps (P := State.Bounded)
    (f := fun s e => s.custodyClose e (match openRunOf s.rings.runs k with
      | some r => r.last
      | none => t.getD e.key.openSlice))
    (fun s e h => custodyClose_bounded e _ h) (liveOfPeer s.spans.table k) hs
  unfold State.custodyReport
  dsimp only
  have reported : ∀ u : State, u.Bounded → ∀ r : CustodyRecord, State.Bounded
      (u.withSpans { u.spans with custody := addCustody u.spans.custody r }) :=
    fun u hu r => { hu with spans := { hu.spans with custody := addCustody_length r hu.spans.custody } }
  refine State.Bounded.raise (reported _ ?_ _) _ _ _ _
  exact foldl_keeps (fun s e h => custodyClose_bounded e _ h) _ hs

theorem returnReport_bounded {s : State} (k : StationId) (j : Option Slice) (hs : s.Bounded) :
    (s.returnReport k j).Bounded := by
  unfold State.returnReport
  split
  · exact hs
  · next r _ =>
    have sent := foldl_keeps (fun s i h => announce_bounded i h) r.items hs
    exact { sent with spans := { sent.spans with
      custody := (List.length_filter_le _ _).trans sent.spans.custody } }

theorem incarnationReport_bounded {s : State} (k : StationId) (t : Option Slice) (hs : s.Bounded) :
    (s.incarnationReport k t).Bounded := by
  have closed := table_map_within (fun _ he => closeOld_inRange k t s.control.id he) hs.spans
  exact { hs with spans := { closed with
    custody := (List.length_filter_le _ _).trans hs.spans.custody } }

/-! ### Staging and the store -/

theorem dropStaged_length {α : Type} (b : Bool) {l left : List α} {d : α}
    (h : dropStaged b l = some (d, left)) : left.length + 1 = l.length := by
  match l, h with
  | [_], h =>
    rw [dropStaged] at h
    split at h <;> cases h
    rfl
  | _ :: _ :: _, h =>
    rw [dropStaged] at h
    split at h <;> cases h <;> rfl

/-- A full staging area has a page to drop. -/
theorem dropStaged_of_full {α : Type} (b : Bool) {l : List α} (hfull : 2 ≤ l.length) :
    dropStaged b l ≠ none := by
  match l, hfull with
  | _ :: _ :: _, _ =>
    rw [dropStaged]
    split <;> simp

theorem stageCapture_bounded {s : State} (p : OwnPage) (hs : s.Bounded) :
    (s.stageCapture p).Bounded := by
  have hstore := (Store.inRange_iff _).mp hs.store
  refine hs.of_store (stageCapture_frame s p) ((Store.inRange_iff _).mpr ?_)
  unfold State.stageCapture
  split
  · next hroom =>
    change s.store.capture.length < 2 at hroom
    simp only [withStore_store, List.length_append, List.length_singleton]
    omega
  · next hfull =>
    change ¬ s.store.capture.length < 2 at hfull
    split
    · next hnone => exact absurd hnone (dropStaged_of_full _ (by omega))
    · next d left hdrop =>
      have hlength := dropStaged_length _ hdrop
      simp only [raise_store, withStore_store, List.length_append, List.length_singleton]
      omega

theorem stageMirror_bounded {s : State} (p : MirrorPage) (hs : s.Bounded) :
    (s.stageMirror p).Bounded := by
  have hstore := (Store.inRange_iff _).mp hs.store
  refine hs.of_store (stageMirror_frame s p) ((Store.inRange_iff _).mpr ?_)
  unfold State.stageMirror
  split
  · next hroom =>
    change s.store.mirror.length < 2 at hroom
    simp only [withStore_store, List.length_append, List.length_singleton]
    omega
  · next hfull =>
    change ¬ s.store.mirror.length < 2 at hfull
    split
    · next hnone => exact absurd hnone (dropStaged_of_full _ (by omega))
    · next d left hdrop =>
      have hlength := dropStaged_length _ hdrop
      simp only [raise_store, withStore_store, List.length_append, List.length_singleton]
      omega

theorem outcome_bounded {s : State} (o : PageOutcome) (hs : s.Bounded) : (s.outcome o).Bounded := by
  have hstore := (Store.inRange_iff _).mp hs.store
  refine { hs with store := (Store.inRange_iff _).mpr ?_ }
  simpa only [State.outcome, withStore_store, List.length_map] using hstore

theorem settleUnsent_bounded {s : State} (hs : s.Bounded) : s.settleUnsent.Bounded := by
  unfold State.settleUnsent
  split
  · exact hs
  · have settled := outcome_bounded .unsent hs
    exact { settled with }

theorem startRefresh_bounded {s : State} (hs : s.Bounded) :
    (s.withStore s.store.startRefresh).Bounded := by
  have hstore := (Store.inRange_iff _).mp hs.store
  refine { hs with store := (Store.inRange_iff _).mpr ?_ }
  simp only [withStore_store, Store.startRefresh]
  split <;> omega

theorem beginOwn_bounded {s : State} (p : OwnPage) (hs : s.Bounded) : (s.beginOwn p).Bounded :=
  hs.of_rings (beginOwn_frame s p) (by rw [beginOwn_runs]; exact hs.runs)

theorem beginMirror_bounded {s : State} (p : MirrorPage) (hs : s.Bounded) :
    (s.beginMirror p).Bounded :=
  hs.of_rings (beginMirror_frame s p) ((beginMirror_runs s p).trans hs.runs)

theorem grantCapture_bounded {s : State} (p : OwnPage) (hs : s.Bounded) :
    (s.grantCapture p).Bounded := by
  unfold State.grantCapture
  cases s.store.captureWrite with
  | some w =>
    dsimp only
    split
    · exact hs
    · exact { hs with }
  | none =>
    have begun := beginOwn_bounded p hs
    exact { begun with }

theorem grantMirror_bounded {s : State} (p : MirrorPage) (hs : s.Bounded) :
    (s.grantMirror p).Bounded := by
  unfold State.grantMirror
  cases s.store.mirrorWrite with
  | some w =>
    dsimp only
    split
    · exact hs
    · exact { hs with }
  | none =>
    have begun := beginMirror_bounded p hs
    exact { begun with }

theorem grantRead_bounded {s : State} {c : Claim} (p : PageRecord) (pos : ReadPos)
    (hclaim : s.server.claim = some c) (hs : s.Bounded) : (s.grantRead c p pos).Bounded := by
  obtain ⟨-, hroom⟩ := hs.server.claim (by rw [hclaim]; rfl)
  exact { hs with server := ⟨hs.server.queue, hs.server.used, fun h => (nomatch h), fun _ => hroom⟩ }

/-- The item of a lookup without a slot takes 16 of the 336 bytes its claim had room for (R133, R148). -/
theorem answerClaim_bounded {s : State} {c : Claim} (f : Lookup) (hclaim : s.server.claim = some c)
    (hs : s.Bounded) : (s.answerClaim f).Bounded := by
  obtain ⟨hlive, hroom⟩ := hs.server.claim (by rw [hclaim]; rfl)
  have produced : ∀ (p : ReadPos) (i : RecallItem) (n : Place), i.size ≤ 336 →
      Recall.Within (Recall.produce { s.server with claim := none } p i n) := by
    intro p i n hsize
    refine ⟨hs.server.queue, ?_, fun h => (nomatch h), fun h => (nomatch hlive.symm.trans h)⟩
    rw [Recall.produce_used]
    change s.server.used + _ ≤ 19940
    omega
  have taken : Recall.Within { s.server with claim := none } :=
    { hs.server with claim := fun h => nomatch h }
  refine State.Bounded.pump ?_
  unfold State.produceLookup
  split
  · exact { hs with server := taken }
  · split
    · exact { hs with server := taken }
    · have gap : ∀ (r : RecallId) (t : Slice) (l : Lane) (same : Slice → Bool) (o : GapOutcome),
          (r.gapRun t l same o).1.size ≤ 336 := by
        intro r t l same o
        unfold RecallId.gapRun
        dsimp only
        split <;> exact (by decide : 16 ≤ 336)
      refine { hs with server := produced _ _ _ ?_ }
      cases f with
      | held p => exact (by decide : 16 ≤ 336)
      | absent => exact (by decide : 16 ≤ 336)
      | notYet => exact gap _ _ _ _ _
      | beforeRetention => exact gap _ _ _ _ _
      | missing => exact gap _ _ _ _ _

theorem discardMirror_bounded {s : State} (hs : s.Bounded) : s.discardMirror.Bounded := by
  have hstore := (Store.inRange_iff _).mp hs.store
  refine { hs with store := (Store.inRange_iff _).mpr ?_ }
  simp only [State.discardMirror, withStore_store, List.length_drop]
  omega

theorem grantFrom_bounded (n : Nat) {s : State} (hs : s.Bounded) : (s.grantFrom n).Bounded := by
  induction n generalizing s with
  | zero => exact hs
  | succ n ih =>
    unfold State.grantFrom
    split
    · exact hs
    · split
      · exact hs
      · exact startRefresh_bounded hs
      · split
        · exact startRefresh_bounded hs
        · split
          · exact grantCapture_bounded _ hs
          · split
            · split
              · exact ih (discardMirror_bounded hs)
              · exact grantMirror_bounded _ hs
            · split
              · next hclaim _ =>
                split
                · exact grantRead_bounded _ _ hclaim hs
                all_goals exact ih (answerClaim_bounded _ hclaim hs)
              · split
                · exact startRefresh_bounded hs
                · exact hs

theorem restarted_bounded {s : State} (c d : Half) (hs : s.Bounded) :
    ((s.restartOwn c).restartMirror d).Bounded :=
  hs.of_rings (restarted_frame s c d) (by rw [(restarted_rings s c d).2.2]; exact Nat.zero_le _)

theorem restartWrites_inRange {x : Store} (hx : x.inRange = true) :
    x.restartWrites.inRange = true := hx

theorem serverFault_bounded {s : State} (b : Bool) (hs : s.Bounded) :
    (s.withServer (s.server.fault b)).Bounded :=
  { hs with server := Recall.fault_within b hs.server }

theorem reenterInit_bounded {s : State} (hs : s.Bounded) :
    (s.withStore s.store.reenterInit).Bounded := by
  have hstore := (Store.inRange_iff _).mp hs.store
  refine { hs with store := (Store.inRange_iff _).mpr ?_ }
  simp only [withStore_store, Store.reenterInit]
  omega

theorem storeFault_bounded {s : State} (hs : s.Bounded) : s.storeFault.Bounded := by
  have hstore := (Store.inRange_iff _).mp hs.store
  have hreinits : satSucc 65535 s.store.reinits ≤ 65535 := satSucc_le
  have counted : (s.withStore { s.store.restartWrites with
      reinits := satSucc 65535 s.store.reinits }).Bounded := by
    refine { hs with store := (Store.inRange_iff _).mpr ?_ }
    simp only [withStore_store, Store.restartWrites]
    omega
  have told := counted.raise .store .storeFault s.store.faultSubject
    (BitVec.ofNat 16 (s.store.capture.length + s.store.mirror.length))
  exact reenterInit_bounded (serverFault_bounded _
    (restarted_bounded causeStoreFault causeStoreFault told))

theorem refreshTick_bounded {s : State} (hs : s.Bounded) : s.refreshTick.Bounded := by
  unfold State.refreshTick
  split
  · split
    · exact storeFault_bounded hs
    · have hstore := (Store.inRange_iff _).mp hs.store
      refine { hs with store := (Store.inRange_iff _).mpr ?_ }
      simp only [withStore_store, Store.tick]
      split <;> omega
  · exact hs

theorem refreshEnd_bounded {s : State} (hs : s.Bounded) : s.refreshEnd.Bounded := by
  have hstore := (Store.inRange_iff _).mp hs.store
  have ended : (s.withStore { s.store with op := none, row := s.store.row + 1 }).Bounded :=
    { hs with store := hs.store }
  unfold State.refreshEnd
  dsimp only
  split
  · split
    · split
      · refine { hs with store := (Store.inRange_iff _).mpr ?_, control := { hs.control with } }
        simp only [State.enterReady, raise_store, withStore_store]
        omega
      · refine { hs with store := (Store.inRange_iff _).mpr ?_ }
        simp only [withStore_store]
        omega
    · exact ended
  · exact hs

theorem pauseEnd_bounded {s : State} (hs : s.Bounded) : s.pauseEnd.Bounded := by
  have hstore := (Store.inRange_iff _).mp hs.store
  unfold State.pauseEnd
  split
  · refine { hs with store := (Store.inRange_iff _).mpr ?_ }
    simp only [withStore_store, Config.pauseCounts]
    omega
  · exact hs

theorem advanceCapture_bounded {s : State} (hs : s.Bounded) : s.advanceCapture.Bounded := by
  have hstore := (Store.inRange_iff _).mp hs.store
  unfold State.advanceCapture
  split
  · next w p rest _ hcapture =>
    split
    · have left : (s.withStore { s.store with captureWrite := none, capture := rest }).Bounded := by
        refine { hs with store := (Store.inRange_iff _).mpr ?_ }
        rw [hcapture, List.length_cons] at hstore
        simp only [withStore_store]
        omega
      exact { left with }
    · exact { hs with }
  · exact hs

theorem advanceMirror_bounded {s : State} (hs : s.Bounded) : s.advanceMirror.Bounded := by
  have hstore := (Store.inRange_iff _).mp hs.store
  unfold State.advanceMirror
  split
  · next w p rest _ hmirror =>
    split
    · have left : (s.withStore { s.store with mirrorWrite := none, mirror := rest }).Bounded := by
        refine { hs with store := (Store.inRange_iff _).mpr ?_ }
        rw [hmirror, List.length_cons] at hstore
        simp only [withStore_store]
        omega
      exact left.of_rings (completeMirror_frame _ _ _) (completeMirror_runs p _ left.runs)
    · exact { hs with }
  · exact hs

theorem slotWritten_bounded {s : State} (kind : PageKind) (page : Nat) (lane : Lane)
    (bytes : List Byte) (live : Bool) (hs : s.Bounded) :
    (s.slotWritten kind page lane bytes live).Bounded := by
  have ended : ∀ d : List Host.Cell, State.Bounded (State.withStore { s with dram := d }
      { s.store with op := none }) := fun d => { hs with store := hs.store }
  unfold State.slotWritten State.advanceWrite
  split
  · split
    · exact advanceCapture_bounded (ended _)
    · exact advanceMirror_bounded (ended _)
  · exact ended _

theorem fetchSlot_size {s : State} {c : Claim} {page : Nat} {damage : List (Fin 512 × Byte)}
    {i : RecallItem} (hi : s.fetchSlot c page damage = some i) : i.size ≤ 336 := by
  unfold State.fetchSlot at hi
  dsimp only at hi
  split at hi <;> cases hi
  exact Nat.le_refl _

theorem slotFetched_bounded {s : State} (c : Claim) (page : Nat) (damage : List (Fin 512 × Byte))
    (hs : s.Bounded) : (s.slotFetched c page damage).Bounded := by
  have ended : State.Bounded ((s.withStore { s.store with op := none }).withServer
      (s.server.readEnded (s.fetchSlot c page damage))) :=
    { hs with
      store := hs.store
      server := Recall.readEnded_within (fun i hi => fetchSlot_size hi) hs.server }
  exact ended.pump

/-! ### The link and the recall window -/

theorem startWindow_bounded {s : State} (hs : s.Bounded) : s.startWindow.Bounded := by
  unfold State.startWindow
  split
  · have hnotices := (NoticeQueue.inRange_iff _).mp hs.notices
    refine { hs with notices := (NoticeQueue.inRange_iff _).mpr ?_ }
    simp only [NoticeQueue.carry]
    omega
  · exact settleUnsent_bounded hs

theorem NoticeQueue.drain_inRange {q : NoticeQueue} (hq : q.inRange = true) :
    q.drain.inRange = true := by
  unfold NoticeQueue.drain
  split
  · exact hq
  · rw [NoticeQueue.inRange_iff] at hq ⊢
    simp only [List.length_drop]
    omega

theorem windowSent_bounded {s : State} (page : Option Slice) (n : Nat) (plan : List PlanItem)
    (claim : Bool) (hs : s.Bounded) : (s.windowSent page n plan claim).Bounded := by
  have settled : State.Bounded (if page.isSome = true then s.settleSent else s) := by
    split
    · exact outcome_bounded .sent hs
    · exact hs
  unfold State.windowSent
  dsimp only
  generalize (if page.isSome = true then s.settleSent else s) = u at settled ⊢
  have drained : State.Bounded { u.withSpans { u.spans with outbox := u.spans.outbox.drop n } with
      notices := u.notices.drain } :=
    { settled with
      spans := { settled.spans with
        outbox := by
          have := settled.spans.outbox
          simp only [withSpans_spans, List.length_drop]
          omega }
      notices := NoticeQueue.drain_inRange settled.notices }
  split
  · have hstore := (Store.inRange_iff _).mp drained.store
    refine { drained with store := (Store.inRange_iff _).mpr ?_ }
    simp only [withLink_store, withStore_store]
    simp only at hstore
    omega
  · exact { drained with }

theorem windowAborted_bounded {s : State} (page : Option Slice) (n : Nat) (hs : s.Bounded) :
    (s.windowAborted page n).Bounded := by
  unfold State.windowAborted
  dsimp only
  split
  · have settled := settleUnsent_bounded hs
    exact { settled with notices := settled.notices }
  · exact { hs with notices := hs.notices }

theorem startRecall_bounded {s : State} (hs : s.Bounded) : s.startRecall.Bounded := by
  have ended := Recall.endReading_within hs.server
  unfold State.startRecall
  dsimp only
  split
  · exact { hs with server := Recall.hand_within ended }
  · exact { hs with server := ended }

/-! ### Headers, requests and the controller -/

theorem OnlySelections.peers {s t : State} : OnlySelections s t → t.peers = s.peers := by
  rintro ⟨_, _, _, _, _, _, rfl⟩; rfl
theorem OnlyStorage.peers {s t : State} : OnlyStorage s t → t.peers = s.peers := by
  rintro ⟨_, _, _, _, rfl⟩; rfl
theorem OnlySpans.peers {s t : State} : OnlySpans s t → t.peers = s.peers := by
  rintro ⟨_, _, rfl⟩; rfl
theorem OnlyClock.peers {s t : State} : OnlyClock s t → t.peers = s.peers := by
  rintro ⟨_, _, rfl⟩; rfl

theorem closeRun_bounded {s : State} (hs : s.Bounded) : s.closeRun.Bounded :=
  { hs with runs := by simpa [State.closeRun, closeRuns] using hs.runs }

theorem recompute_bounded {s : State} (hs : s.Bounded) : s.recompute.Bounded := by
  have reference : (s.presentReference s.chooseReference).Bounded := by
    have hclock := presentReference_inRange s.chooseReference hs.clock
    have hrings : (s.presentReference s.chooseReference).rings = s.rings := by
      unfold State.presentReference
      dsimp only
      split
      · rfl
      · split
        · obtain ⟨_, _, h⟩ := followReference_frame
            ((s.withRoster { s.roster with reference := s.chooseReference }).raise .roster
              .referenceChanged (idOr255 s.chooseReference)
              (BitVec.ofNat 16 (idOr255 s.roster.reference))) s.roster.reference s.chooseReference
          rw [h]; rfl
        · rfl
    have hruns := hrings ▸ hs.runs
    obtain ⟨_, _, _, _, _, _, h⟩ := presentReference_frame s s.chooseReference
    rw [h] at hclock hruns ⊢
    exact { hs with clock := hclock, runs := hruns, control := { hs.control with } }
  have mirror : ((s.presentReference s.chooseReference).presentMirror s.chooseMirror).Bounded := by
    unfold State.presentMirror
    dsimp only
    split
    · exact reference
    · refine closeRun_bounded ?_
      exact { reference with }
  unfold State.recompute State.disarmIfOwn
  dsimp only
  split
  · exact { mirror with control := { mirror.control with } }
  · exact mirror

theorem purgeRecall_bounded {s : State} (k : StationId) (hs : s.Bounded) :
    (s.purgeRecall k).Bounded :=
  State.Bounded.pump { hs with server := Recall.purge_within k hs.server }

theorem reportIncarnation_bounded {s : State} (k : StationId) (e : RosterEntry) (hs : s.Bounded) :
    (s.reportIncarnation k e).Bounded := by
  have told := purgeRecall_bounded k (incarnationReport_bounded k e.lastBlock hs)
  unfold State.reportIncarnation
  dsimp only
  split
  · exact closeRun_bounded told
  · exact told

theorem reportIncarnation_peers (s : State) (k : StationId) (e : RosterEntry) :
    (s.reportIncarnation k e).peers = s.peers := by
  unfold State.reportIncarnation; dsimp only; split <;> rfl

/-- An entry of another station's, with silence 0 (R61). -/
theorem setEntry_heard_roster {s : State} {k : StationId} {e : RosterEntry}
    (hother : k ≠ s.control.id) (hsilence : e.silence = 0)
    (hs : s.roster.inRange s.control.id = true) :
    (s.setEntry k e).roster.inRange (s.setEntry k e).control.id = true := by
  change Roster.inRange { s.roster with entries := put s.roster.entries k e } s.control.id = true
  rw [Roster.inRange_iff] at hs ⊢
  obtain ⟨hown, hall⟩ := hs
  refine ⟨by rw [look_put, if_neg (Ne.symm hother)]; exact hown, fun j => ?_⟩
  rw [look_put]
  split
  · rw [hsilence]; exact ⟨Nat.zero_le _, fun _ => Nat.zero_le _⟩
  · exact hall j

theorem applyHeader_within {s : State} (h : Header) (t : Option Slice)
    (hother : h.sender ≠ s.control.id) (hs : s.Within) : (s.applyHeader h t).Within := by
  have recomputed : ∀ u : State, u.Within → u.recompute.Within := fun u hu =>
    hu.mk_of_peers (recompute_bounded hu.bounded) (recompute_frame u).peers
  have reported : ∀ c : Hearing, State.Within (if c.isNew = true then
      s.reportIncarnation h.sender (s.entry h.sender) else s) ∧
      State.peers (if c.isNew = true then
        s.reportIncarnation h.sender (s.entry h.sender) else s) = s.peers := by
    intro c
    split
    · have hpeers := reportIncarnation_peers s h.sender (s.entry h.sender)
      exact ⟨hs.mk_of_peers (reportIncarnation_bounded _ _ hs.bounded) hpeers, hpeers⟩
    · exact ⟨hs, rfl⟩
  have heard : ∀ (u : State) (c : Hearing), u.Within → u.peers = s.peers → State.Within
      (u.setEntry h.sender (u.heardEntry (s.entry h.sender) h c t)) := by
    intro u c hu hpeers
    have hid : u.control.id = s.control.id := congrArg Prod.fst hpeers
    exact ⟨{ hu.bounded with }, setEntry_heard_roster (hid ▸ hother) rfl hu.roster⟩
  have told : ∀ (u : State) (c : Hearing), u.Within → State.Within (match c.detail with
      | none => u
      | some d => u.raise .roster .peerJoined h.sender.val d) := by
    intro u c hu
    split
    · exact hu
    · exact ⟨hu.bounded.raise _ _ _ _, hu.roster⟩
  have returned : ∀ u : State, u.Within → (u.returnReport h.sender (some h.join)).Within := fun u hu =>
    hu.mk_of_peers (returnReport_bounded _ _ hu.bounded) (returnReport_frame _ _ _).peers
  unfold State.applyHeader
  dsimp only
  refine recomputed _ ?_
  obtain ⟨hreported, hpeers⟩ := reported ((s.entry h.sender).hearing h)
  have hheard := told _ ((s.entry h.sender).hearing h)
    (heard _ ((s.entry h.sender).hearing h) hreported hpeers)
  split
  · exact returned _ hheard
  · exact hheard

theorem hearCondition_bounded {s : State} (h : Header) (hs : s.Bounded) :
    (s.hearCondition h).Bounded := by
  unfold State.hearCondition State.setPending
  dsimp only
  split
  · split
    · split
      · split <;> exact { hs with control := { hs.control with } }
      · exact hs
    · exact { hs with control := { hs.control with } }
  · exact hs

theorem hearCondition_peers (s : State) (h : Header) : (s.hearCondition h).peers = s.peers := by
  unfold State.hearCondition
  dsimp only
  split
  · split
    · split
      · split <;> rfl
      · rfl
    · rfl
  · rfl

theorem mirrorBlocks_bounded {s : State} (k : StationId) (bs : List Block) (hs : s.Bounded) :
    (s.mirrorBlocks k bs).Bounded := by
  unfold State.mirrorBlocks
  split
  · split
    · exact closeRun_bounded hs
    · exact stageMirror_bounded _ hs
  · exact hs

theorem mirrorBlocks_peers (s : State) (k : StationId) (bs : List Block) :
    (s.mirrorBlocks k bs).peers = s.peers := by
  unfold State.mirrorBlocks
  split
  · split
    · rfl
    · exact (stageMirror_frame _ _).storage.peers
  · rfl

theorem resplit_bounded {s : State} (hs : s.Bounded) : s.resplit.Bounded := by
  have emptied := restarted_bounded causeResplit causeResplit hs
  unfold State.resplit
  dsimp only
  exact { emptied with store := restartWrites_inRange emptied.store }

/-- The control of a state after which a charter in range is in force. -/
theorem enforced_within {c : Control} (p : PendingCharter) (hp : p.charter.inRange = true)
    (hc : c.Within) : Control.Within { c with
      status := .adopted, charter := p.charter, digest := p.digest, pendingCharter := none } :=
  { hc with charter := hp, pending := fun _ h => nomatch h }

theorem enforce_bounded {s : State} (p : PendingCharter) (hp : p.charter.inRange = true)
    (hs : s.Bounded) : (s.enforce p).Bounded := by
  unfold State.enforce
  dsimp only
  split
  · have again := resplit_bounded hs
    exact { again with control := enforced_within p hp again.control }
  · exact { hs with control := enforced_within p hp hs.control }

theorem refreshAgreements_peers (s : State) : s.refreshAgreements.peers = s.peers := by
  have same : ∀ k, (look s.refreshAgreements.roster.entries k).state =
      (look s.roster.entries k).state ∧ (look s.refreshAgreements.roster.entries k).silence =
      (look s.roster.entries k).silence := by
    intro k
    simp only [State.refreshAgreements, withRoster_roster, look_map]
    split <;> exact ⟨rfl, rfl⟩
  simp only [State.peers, same]
  rfl

theorem enforce_peers (s : State) (p : PendingCharter) : (s.enforce p).peers = s.peers := by
  unfold State.enforce
  dsimp only
  refine (refreshAgreements_peers _).trans ?_
  split
  · exact (resplit_frame s).peers
  · rfl

theorem judgeCharter_within {s : State} (p : PendingCharter) (hp : p.charter.inRange = true)
    (hs : s.Within) : (s.judgeCharter p).Within := by
  unfold State.judgeCharter
  dsimp only
  split
  · have hset := hs.mk_of_peers (settingsFrom_bounded p.charter (enforce_bounded p hp hs.bounded))
      ((settingsFrom_frame _ _).peers.trans (enforce_peers s p))
    unfold State.adoptNow
    dsimp only
    split
    · exact hset.mk_of_peers (recompute_bounded hset.bounded) (recompute_frame _).peers
    · exact hset
  · split
    · exact hs
    · split
      · refine hs.mk_of_peers { hs.bounded with control := ?_ } rfl
        exact { hs.bounded.control with pending := fun q hq => by cases hq; exact hp }
      · split
        · exact ⟨hs.bounded.raise _ _ _ _, hs.roster⟩
        · exact hs

theorem judgeRecall_within {s : State} (k : StationId) (t : Half) (a b : Byte) (f l : Slice)
    (hs : s.Within) : (s.judgeRecall k t a b f l).Within := by
  have refused : (s.refuseRecall k t).Within := ⟨hs.bounded.raise _ _ _ _, hs.roster⟩
  unfold State.judgeRecall
  split
  · exact refused
  · dsimp only
    split
    · exact refused
    · split
      · exact refused
      · split
        · exact refused
        · split
          · exact hs
          · split
            · exact refused
            · next hroom =>
              change ¬ 8 ≤ s.server.queue.length at hroom
              exact hs.mk_of_peers (State.Bounded.pump { hs.bounded with
                server := Recall.accept_within _ (by omega) hs.bounded.server }) rfl

theorem takePairs_runs (pairs : List (Byte × Slice)) (r : Rings) :
    (r.takePairs pairs).runs = r.runs := by
  induction pairs generalizing r with
  | nil => rfl
  | cons p ps ih =>
    refine (ih _).trans ?_
    unfold Rings.takePair
    split
    · rfl
    · split <;> rfl

theorem takeRequest_within {s : State} (k : StationId) (r : Request) (hs : s.Within) :
    (s.takeRequest k r).Within := by
  have replaced : ∀ c : Control, c.Within → c.id = s.control.id → (s.withControl c).Within := by
    intro c hc hid
    refine hs.mk_of_peers { hs.bounded with control := hc } ?_
    simp only [State.peers, withControl_control, withControl_roster, hid]
  have hcontrol := hs.bounded.control
  unfold State.takeRequest
  split
  · unfold State.takeCharter
    split
    · split
      · exact ⟨hs.bounded.raise _ _ _ _, hs.roster⟩
      · next c hread => exact judgeCharter_within _ (readCharter_inRange hread) hs
    · exact hs
  · unfold State.takeCondition State.setPending
    split
    · split
      · exact hs
      · exact replaced _ { hcontrol with } rfl
    · exact hs
  · unfold State.takeTimeMark
    split
    · exact hs.mk_of_peers
        { hs.bounded with clock := Clock.takeMark_inRange _ _ _ hs.bounded.clock } rfl
    · exact hs
  · unfold State.takeProbe
    split
    · exact ⟨hs.bounded.raise _ _ _ _, hs.roster⟩
    · exact hs
  · unfold State.takeStop
    split
    · exact replaced _ { hcontrol with } rfl
    · exact hs
  · unfold State.takeStart
    split
    · exact replaced _ { hcontrol with } rfl
    · exact hs
  · unfold State.takeArchiveMark
    split
    · refine hs.mk_of_peers { hs.bounded with runs := ?_ } rfl
      rw [withRings_rings, takePairs_runs]
      exact hs.bounded.runs
    · exact hs
  · unfold State.takeRecallRequest State.takeRecall
    split
    · split
      · exact judgeRecall_within _ _ _ _ _ _ hs
      · exact hs
    · exact hs

/-! ### Boundaries -/

theorem losePeer_bounded {s : State} (k : StationId) (hs : s.Bounded) : (s.losePeer k).Bounded := by
  have lost : State.Bounded ((s.setEntry k { look s.roster.entries k with state := .lost }).raise
      .roster .peerLost k.val (sliceDetail ((look s.roster.entries k).lastHeard.getD 0))) :=
    { hs with }
  unfold State.losePeer
  dsimp only
  refine purgeRecall_bounded k ?_
  split
  · exact custodyReport_bounded k _ _ lost
  · exact lossReport_bounded k _ lost

/-- A lost peer's entry goes LOST; no other entry, no selection and nothing of the controller changes
(R65). -/
theorem losePeer_roster (s : State) (k : StationId) :
    (s.losePeer k).roster = { s.roster with
      entries := put s.roster.entries k { look s.roster.entries k with state := .lost } } ∧
    (s.losePeer k).control = s.control := by
  unfold State.losePeer
  dsimp only
  have spans : ∀ {u v : State}, OnlySpans u v →
      (v.purgeRecall k).roster = u.roster ∧ (v.purgeRecall k).control = u.control := by
    rintro u v ⟨_, _, rfl⟩
    exact ⟨rfl, rfl⟩
  split
  · exact spans (custodyReport_frame _ _ _ _)
  · exact spans (lossReport_frame _ _ _)

/-- Of the IDs of a list without repeats those whose silence is too long go LOST (R64, R65). -/
theorem foldl_losePeer_roster (ids : List StationId) (hnodup : ids.Nodup) (s t : State)
    (ht : t = ids.foldl (fun s k => if s.isLost k then s.losePeer k else s) s) :
    t.control = s.control ∧ t.roster.reference = s.roster.reference ∧
    t.roster.mirror = s.roster.mirror ∧ ∀ j, look t.roster.entries j =
      if j ∈ ids ∧ s.isLost j = true then { look s.roster.entries j with state := .lost }
        else look s.roster.entries j := by
  induction ids generalizing s with
  | nil => exact ht ▸ ⟨rfl, rfl, rfl, fun j => (if_neg (fun h => nomatch h.1)).symm⟩
  | cons k ids ih =>
    obtain ⟨hk, hids⟩ := List.nodup_cons.mp hnodup
    let u := if s.isLost k then s.losePeer k else s
    have hstep : u.control = s.control ∧ u.roster.reference = s.roster.reference ∧
        u.roster.mirror = s.roster.mirror ∧ ∀ j, look u.roster.entries j =
          if j = k ∧ s.isLost j = true then { look s.roster.entries j with state := .lost }
            else look s.roster.entries j := by
      by_cases hlost : s.isLost k = true
      · have hu : u = s.losePeer k := if_pos hlost
        obtain ⟨hroster, hcontrol⟩ := losePeer_roster s k
        rw [hu, hroster]
        refine ⟨hcontrol, rfl, rfl, fun j => ?_⟩
        rw [look_put]
        by_cases hj : j = k
        · rw [if_pos hj, if_pos ⟨hj, hj ▸ hlost⟩, hj]
        · rw [if_neg hj, if_neg fun h => hj h.1]
      · have hu : u = s := if_neg hlost
        rw [hu]
        refine ⟨rfl, rfl, rfl, fun j => (if_neg ?_).symm⟩
        rintro ⟨rfl, h⟩
        exact hlost h
    obtain ⟨hcontrol, hreference, hmirror, hentries⟩ := hstep
    obtain ⟨hc, hr, hm, he⟩ := ih hids u ht
    refine ⟨hc.trans hcontrol, hr.trans hreference, hm.trans hmirror, fun j => (he j).trans ?_⟩
    by_cases hj : j = k
    · have hout : j ∉ ids := hj ▸ hk
      rw [if_neg fun h => hout h.1, hentries j]
      simp [hj]
    · have hsame : look u.roster.entries j = look s.roster.entries j := by
        rw [hentries j, if_neg fun h => hj h.1]
      have hlost : u.isLost j = s.isLost j := by
        simp only [State.isLost, hcontrol, hsame]
      rw [hlost, hsame]
      simp [hj]

theorem losePeers_roster (s : State) :
    s.losePeers.control = s.control ∧ s.losePeers.roster.reference = s.roster.reference ∧
    s.losePeers.roster.mirror = s.roster.mirror ∧ ∀ j, look s.losePeers.roster.entries j =
      if s.isLost j then { look s.roster.entries j with state := .lost }
        else look s.roster.entries j := by
  have hnodup : allIds.Nodup := by simp [allIds]
  obtain ⟨hcontrol, hreference, hmirror, hentries⟩ := foldl_losePeer_roster allIds hnodup s
    s.losePeers rfl
  refine ⟨hcontrol, hreference, hmirror, fun j => (hentries j).trans ?_⟩
  simp only [mem_allIds, true_and]

theorem losePeers_bounded {s : State} (hs : s.Bounded) : s.losePeers.Bounded := by
  refine foldl_keeps (fun u k hu => ?_) _ hs
  split
  · exact losePeer_bounded k hu
  · exact hu

/-- After the losses a PRESENT entry's silence is at most loss_slices, at most 200, where it was at most
one more before (R64, R166). -/
theorem losePeers_roster_inRange {s : State} (hlimit : s.control.charter.lossSlices ≤ 200)
    (hown : (look s.roster.entries s.control.id).state ≠ .present)
    (hall : ∀ k, (look s.roster.entries k).silence ≤ 201) :
    s.losePeers.roster.inRange s.losePeers.control.id = true := by
  obtain ⟨hcontrol, -, -, hentries⟩ := losePeers_roster s
  rw [Roster.inRange_iff, hcontrol]
  refine ⟨?_, fun k => ?_⟩
  · rw [hentries]
    split
    · exact fun h => nomatch h
    · exact hown
  · rw [hentries]
    split
    · exact ⟨hall k, fun h => nomatch h⟩
    · next hkept =>
      refine ⟨hall k, fun hpresent => ?_⟩
      simp only [State.isLost, decide_eq_true_eq, not_and, not_lt] at hkept
      exact (hkept (fun hk => hown (hk ▸ hpresent)) hpresent).trans hlimit

theorem losePeers_within {s : State} (hs : s.Within) : s.losePeers.Within := by
  have hroster := (Roster.inRange_iff _ _).mp hs.roster
  exact ⟨losePeers_bounded hs.bounded, losePeers_roster_inRange hs.bounded.limits.1 hroster.1
    fun k => (hroster.2 k).1⟩

theorem age_state (e : RosterEntry) : e.age.state = e.state := by
  unfold RosterEntry.age
  split <;> rfl

theorem ageing_within {s : State} (hs : s.Within) :
    s.ageOrphans.timeOutOrphans.ageEntries.losePeers.Within := by
  obtain ⟨hown, hall⟩ := (Roster.inRange_iff _ _).mp hs.roster
  have aged := ageing_bounded hs.bounded
  have hentries : ∀ k, look s.ageOrphans.timeOutOrphans.ageEntries.roster.entries k =
      (look s.roster.entries k).age := fun k => look_map _ _ k
  refine ⟨losePeers_bounded aged, losePeers_roster_inRange aged.limits.1 ?_ fun k => ?_⟩
  · rw [hentries, age_state]
    exact hown
  · have hk := hall k
    rw [hentries, RosterEntry.age]
    split
    · next hpresent =>
      have := hk.2 hpresent
      simp only
      omega
    · exact hk.1

theorem updateLane_bounded {o s : State} (p : Presented) (l : Lane) (ho : o.seat.inRange = true)
    (hs : s.Bounded) : (o.updateLane p s l).Bounded := by
  have hseat := updateLane_inRange p l ho hs.seat
  unfold State.updateLane at hseat ⊢
  dsimp only at hseat ⊢
  split at hseat <;> exact { hs with seat := hseat }

theorem seatBoundary_bounded {s : State} (p : Presented) (q : Option Split) (hs : s.Bounded) :
    (s.seatBoundary p q).Bounded := by
  have settled := settleUnsent_bounded hs
  unfold State.seatBoundary State.capturedBoundary
  dsimp only
  split
  · refine stageCapture_bounded _ ?_
    refine foldl_keeps (fun t l ht => detectorLane_bounded l _ _ _ _ ht) _ ?_
    exact foldl_keeps (fun t l ht => updateLane_bounded p l settled.seat ht) _ settled
  · exact foldl_keeps (fun t l ht => detectOnly_bounded _ l ht) _ settled

theorem settleUnsent_peers (s : State) : s.settleUnsent.peers = s.peers := by
  unfold State.settleUnsent; split <;> rfl

theorem foldl_peers {α : Type} (f : State → α → State) (step : ∀ s a, (f s a).peers = s.peers)
    (l : List α) (s : State) : (l.foldl f s).peers = s.peers :=
  foldl_frame (P := fun s t => t.peers = s.peers) (fun _ => rfl) (fun h h' => h'.trans h) f step l s

theorem updateLane_peers (o : State) (p : Presented) (s : State) (l : Lane) :
    (o.updateLane p s l).peers = s.peers := by
  unfold State.updateLane; dsimp only; split <;> rfl

theorem seatBoundary_peers (s : State) (p : Presented) (q : Option Split) :
    (s.seatBoundary p q).peers = s.peers := by
  refine Eq.trans ?_ (settleUnsent_peers s)
  unfold State.seatBoundary State.capturedBoundary
  dsimp only
  split
  · refine (stageCapture_frame _ _).storage.peers.trans ?_
    exact (foldl_peers _ (fun t l => (detectorLane_frame t l _ _ _ _).peers) _ _).trans
      (foldl_peers _ (fun t l => updateLane_peers _ _ t l) _ _)
  · exact foldl_peers _ (fun t l => (detectOnly_frame _ t l).peers) _ _

theorem adoptPending_bounded {s : State} (hs : s.Bounded) : s.adoptPending.Bounded := by
  unfold State.adoptPending
  split
  · exact hs
  · next p hp => exact enforce_bounded p (hs.control.pending p hp) hs

theorem adoptPending_peers (s : State) : s.adoptPending.peers = s.peers := by
  unfold State.adoptPending
  split
  · rfl
  · exact enforce_peers s _

theorem changeCondition_within {s : State} (hs : s.Within) : s.changeCondition.Within := by
  unfold State.changeCondition
  split
  · exact hs
  · exact hs.mk_of_peers { hs.bounded with control := { hs.bounded.control with } } rfl

theorem settleDefaults_frame (s : State) : ∃ a r, s.settleDefaults =
    { s with control := { s.control with status := a }, raised := r } := by
  unfold State.settleDefaults
  split <;> exact ⟨_, _, rfl⟩

/-- A state but for its listen count: the count is at most 300, and below while LISTEN lasts. -/
theorem bounded_of_listen {s : State} {c : Control} {r : List Raised} (hs : s.Bounded)
    (hcharter : c.charter = s.control.charter) (hpending : c.pendingCharter = s.control.pendingCharter)
    (hlisten : c.listen ≤ 300) (hlistening : c.mode = some .listen → c.listen < 300) :
    State.Bounded { s with control := c, raised := r } :=
  { hs with control := ⟨hcharter ▸ hs.control.charter, hpending ▸ hs.control.pending, hlisten,
      hlistening⟩ }

/-- At 300 boundaries LISTEN ends, so while it lasts the count is below 300 (R161). -/
theorem decideListen_bounded {s : State} {n : Nat} (b : Bool) (hlisten : n ≤ 300) (hs : s.Bounded) :
    ((s.withControl { s.control with listen := n }).decideListen b).Bounded := by
  obtain ⟨a, r, h⟩ := settleDefaults_frame (s.withControl { s.control with listen := n })
  unfold State.decideListen
  rw [h]
  dsimp only
  split
  · have left : ∀ x, State.Bounded { s with
        control := { s.control with
          listen := n, status := a, join := some s.clock.index
          condition := s.control.followed.getD s.control.condition
          correction := s.control.followed.isSome, followed := none
          mode := some (if b then .run else .idle) }
        raised := x } := by
      refine fun x => bounded_of_listen hs rfl rfl hlisten fun hmode => ?_
      cases b <;> cases hmode
    exact left _
  · next hgoes =>
    have stays : State.Bounded
        { s with control := { s.control with listen := n, status := a }, raised := r } := by
      refine bounded_of_listen hs rfl rfl hlisten fun _ => ?_
      have hshort : ¬ ((50 ≤ n ∧ a = .adopted) ∨ 300 ≤ n) := fun h => hgoes (decide_eq_true h)
      exact Nat.lt_of_not_le fun h => hshort (.inr h)
    exact stays

theorem decideListen_peers (s : State) (b : Bool) : (s.decideListen b).peers = s.peers := by
  obtain ⟨a, r, h⟩ := settleDefaults_frame s
  unfold State.decideListen
  rw [h]
  dsimp only
  split <;> rfl

theorem changeMode_within {s : State} (b : Bool) (hs : s.Within) : (s.changeMode b).Within := by
  have entered : ∀ c : Control, c.charter = s.control.charter →
      c.pendingCharter = s.control.pendingCharter → c.listen ≤ 300 → c.id = s.control.id →
      (c.mode = some .listen → c.listen < 300) → (s.withControl c).Within := by
    intro c hcharter hpending hlisten hid hlistening
    refine hs.mk_of_peers (bounded_of_listen hs.bounded hcharter hpending hlisten hlistening) ?_
    simp only [State.peers, withControl_control, withControl_roster, hid]
  have moved : ∀ {u : State} {m : Mode} (k : Option StationId), m ≠ .listen ∨ u.control.listen < 300 →
      (u.withControl { u.control with mode := some m }).Within → (u.enterMode m k).Within :=
    fun k _ hu => ⟨hu.bounded.raise _ _ _ _, hu.roster⟩
  have hlisten := hs.bounded.control.listen
  unfold State.changeMode
  split
  · exact hs
  · split
    · refine moved none (.inr (by decide : 0 < 300)) ?_
      exact entered { s.control with listen := 0, mode := some .listen } rfl rfl (Nat.zero_le _) rfl
        fun _ => (by decide : 0 < 300)
    · exact hs
  · next hmode =>
    have hbelow := hs.bounded.control.listening hmode
    exact hs.mk_of_peers (decideListen_bounded b hbelow hs.bounded)
      ((decideListen_peers _ b).trans rfl)
  · split
    · refine moved s.control.pendingStop (.inl (by decide)) ?_
      exact entered { s.control with pendingStop := none, mode := some .idle } rfl rfl hlisten rfl
        fun h => nomatch h
    · exact hs
  · next hmode =>
    split
    · exact hs
    · next k _ =>
      dsimp only
      split
      · refine moved (some k) (.inl (by decide)) ?_
        exact entered { s.control with pendingStart := none, mode := some .run } rfl rfl hlisten rfl
          fun h => nomatch h
      · exact entered { s.control with pendingStart := none } rfl rfl hlisten rfl
          fun h => nomatch hmode.symm.trans h

theorem fresh_within (a b d : Bool) (id : StationId) (lanes : Nat) (code : BitVec 2)
    (mode : Option Mode) (uses : Nat) (q : List Instr) :
    (State.fresh a b d id lanes code mode uses q).Within where
  bounded :=
    { clock := (by decide : Clock.reset.inRange = true)
      seat := by
        refine (SeatCapture.inRange_iff _).mpr fun l => ?_
        change (look (Vector.replicate 8 Accumulator.cleared) l).inRange = true ∧
          (look (Vector.replicate 8 LaneFault.reset) l).inRange = true
        rw [look_replicate, look_replicate]
        decide
      spans := (Spans.inRange_iff _).mp (by decide : Spans.reset.inRange = true)
      store := (by decide : Store.reset.inRange = true)
      server := (Recall.inRange_iff _).mp (by decide : Recall.reset.inRange = true)
      control := ⟨(by decide : Charter.defaults.inRange = true), fun _ h => (nomatch h), Nat.zero_le _,
        fun _ => (by decide : 0 < 300)⟩
      notices := (by decide : NoticeQueue.reset.inRange = true)
      runs := Nat.zero_le _ }
  roster := by
    refine (Roster.inRange_iff _ _).mpr ⟨?_, fun k => ?_⟩
    · change (look (Vector.replicate 16 RosterEntry.reset) id).state ≠ .present
      rw [look_replicate]
      decide
    · change (look (Vector.replicate 16 RosterEntry.reset) k).silence ≤ 201 ∧
        ((look (Vector.replicate 16 RosterEntry.reset) k).state = .present →
          (look (Vector.replicate 16 RosterEntry.reset) k).silence ≤ 200)
      rw [look_replicate]
      decide

theorem countsPass_within {s : State} (n : Nat) (hs : s.Within) : (s.countsPass n).Within := by
  unfold State.countsPass
  split
  · refine hs.mk_of_peers { hs.bounded with
      clock := Clock.pass_inRange n hs.bounded.clock, store := (Store.inRange_iff _).mpr ?_ } rfl
    have hstore := (Store.inRange_iff _).mp hs.bounded.store
    simp only [Store.pass, Config.pauseCounts]
    split <;> omega
  · exact hs

/-- Every operation keeps the ranges. -/
theorem within_kept : KeptByOps State.Within where
  pending _ _ hs := hs.mk_of_peers { hs.bounded with } rfl
  stopN _ _ hs := hs.mk_of_peers { hs.bounded with } rfl
  waitRaised _ hs := hs.mk_of_peers { hs.bounded with } rfl
  waitReleased _ hs := hs.mk_of_peers { hs.bounded with } rfl
  counts _ n hs := countsPass_within n hs
  assertReset _ _ := fresh_within _ _ _ _ _ _ _ _ _
  releaseReset _ _ _ _ _ := fresh_within _ _ _ _ _ _ _ _ _
  settle _ hs := hs.mk_of_peers (settleNotices_bounded hs.bounded) rfl
  grant s hs := hs.mk_of_peers (grantFrom_bounded _ hs.bounded) (grant_frame s).peers
  link _ _ h hs := hs.mk_of_peers (hs.bounded.of_link h) (by obtain ⟨_, rfl⟩ := h; rfl)
  periodEnd _ lines hs := hs.mk_of_peers { hs.bounded with
    clock := Clock.endPeriod_inRange hs.bounded.clock
    seat := sampleLanes_inRange lines hs.bounded.seat } rfl
  clockBoundary s p n hs := by
    have hframe : OnlyClock s (s.clockBoundary p n) := by
      unfold State.clockBoundary State.takeStep
      dsimp only
      split
      · split <;> exact ⟨_, _, rfl⟩
      · exact ⟨_, _, rfl⟩
    exact hs.mk_of_peers (hs.bounded.of_clock hframe (clockBoundary_inRange p n hs.bounded.clock))
      hframe.peers
  ageing _ hs := ageing_within hs
  timeOutOrphans _ hs := hs.mk_of_peers (timeOutOrphans_bounded hs.bounded) rfl
  losePeers _ hs := losePeers_within hs
  seatBoundary _ p q hs := hs.mk_of_peers (seatBoundary_bounded p q hs.bounded)
    (seatBoundary_peers _ p q)
  adoptPending _ hs := hs.mk_of_peers (adoptPending_bounded hs.bounded) (adoptPending_peers _)
  changeCondition _ hs := changeCondition_within hs
  changeMode _ b hs := changeMode_within b hs
  decideListen _ b hs := hs.mk_of_peers
    (decideListen_bounded b hs.bounded.control.listen hs.bounded) (decideListen_peers _ b)
  recompute s hs := hs.mk_of_peers (recompute_bounded hs.bounded) (recompute_frame s).peers
  endFree s m hs := by
    unfold State.endFree
    split
    · exact hs.mk_of_peers { hs.bounded with
        clock := (Clock.enter_inRange (if s.roster.reference = some s.control.id then .selfRef
          else .tracking) hs.bounded.clock :) } rfl
    · exact hs
  beginSlice _ hs := hs.mk_of_peers { hs.bounded with
    seat := cleared_inRange _ hs.bounded.seat } rfl
  linkBoundary _ hs := hs.mk_of_peers { hs.bounded with
    server := Recall.hold_within _ hs.bounded.server } rfl
  startWindow s hs := hs.mk_of_peers (startWindow_bounded hs.bounded) (by
    unfold State.startWindow
    split
    · rfl
    · exact settleUnsent_peers s)
  windowSent s page n plan claim hs :=
    hs.mk_of_peers (windowSent_bounded page n plan claim hs.bounded) (by
      unfold State.windowSent; dsimp only; split <;> split <;> rfl)
  windowAborted s page n hs := hs.mk_of_peers (windowAborted_bounded page n hs.bounded) (by
      unfold State.windowAborted
      dsimp only
      split
      · exact settleUnsent_peers s
      · rfl)
  startRecall s hs := hs.mk_of_peers (startRecall_bounded hs.bounded) (by
    obtain ⟨_, _, h⟩ := startRecall_frame s
    rw [h]; rfl)
  recallSent _ hs := hs.mk_of_peers { hs.bounded with
    server := Recall.sent_within hs.bounded.server } rfl
  recallAborted _ _ hs := hs.mk_of_peers { hs.bounded with
    server := Recall.aborted_within hs.bounded.server } rfl
  applyHeader _ h t hother hs := applyHeader_within h t hother hs
  hearCondition s h hs := hs.mk_of_peers (hearCondition_bounded h hs.bounded)
    (hearCondition_peers s h)
  clockLeadIn s h l hs := hs.mk_of_peers
    (hs.bounded.of_clock (clockLeadIn_frame s h l) (clockLeadIn_inRange h l hs.bounded.clock))
    (clockLeadIn_frame s h l).peers
  mirrorBlocks s k bs hs := hs.mk_of_peers (mirrorBlocks_bounded k bs hs.bounded)
    (mirrorBlocks_peers s k bs)
  applyOpen s k i hs := hs.mk_of_peers (applyOpen_bounded k i hs.bounded) (applyOpen_frame s k i).peers
  applyClose s k i hs := hs.mk_of_peers (applyClose_bounded k i hs.bounded)
    (applyClose_frame s k i).peers
  applyBeacon s k es hs := hs.mk_of_peers
    (foldl_keeps (fun _ i h => applyBeaconEntry_bounded k i h) es hs.bounded)
    (applyBeacon_frame s k es).peers
  takeRequest _ k r hs := takeRequest_within k r hs
  pauseEnd s hs := hs.mk_of_peers (pauseEnd_bounded hs.bounded) (by
    unfold State.pauseEnd; split <;> rfl)
  refreshTick s hs := hs.mk_of_peers (refreshTick_bounded hs.bounded) (refreshTick_frame s).peers
  refreshEnd s hs := hs.mk_of_peers (refreshEnd_bounded hs.bounded) (by
    unfold State.refreshEnd
    dsimp only
    split
    · split
      · split <;> rfl
      · rfl
    · rfl)
  slotWritten s kind page lane bytes live _ hs :=
    hs.mk_of_peers (slotWritten_bounded kind page lane bytes live hs.bounded)
      ((advanceWrite_frame _ _ _).peers.trans rfl)
  slotFetched s c page damage _ hs := hs.mk_of_peers (slotFetched_bounded c page damage hs.bounded) rfl

/-- Settles O57: every operation, so every step, keeps the ranges. -/
theorem rangesKept : Obligations.RangesKept := fun s t hs hstep =>
  (inRange_iff t).mpr (within_kept.step ((inRange_iff s).mp hs) hstep)

end Sys2Proof.Machine
end


section
/-! SUPPORT. Proofs about sample periods, blocks and lane faults (chapters 1 and 2): R1, R19 to R27. -/

namespace Sys2Proof.Machine

/-! ### Folds over lanes -/

/-- A fold that replaces one entry of a table at each index of a list without repeats replaces those
entries, each from what stood there before. -/
theorem look_foldl_put {σ α : Type} {n : Nat} (f : σ → Fin n → σ) (table : σ → Vector α n)
    (new : Fin n → α → α)
    (hf : ∀ x l, table (f x l) = put (table x) l (new l (look (table x) l)))
    (ls : List (Fin n)) (hnodup : ls.Nodup) (x : σ) (j : Fin n) :
    look (table (ls.foldl f x)) j =
      if j ∈ ls then new j (look (table x) j) else look (table x) j := by
  induction ls generalizing x with
  | nil => rfl
  | cons l ls ih =>
    obtain ⟨hl, hls⟩ := List.nodup_cons.mp hnodup
    rw [List.foldl_cons, ih hls, hf, look_put]
    by_cases hj : j = l
    · simp [hj, hl]
    · simp [hj]

theorem allLanes_nodup : allLanes.Nodup := by simp [allLanes]

theorem presentLanes_nodup (s : State) : s.presentLanes.Nodup := allLanes_nodup.filter _

@[simp] theorem mem_presentLanes {s : State} {l : Lane} :
    l ∈ s.presentLanes ↔ l.val < s.seat.laneCount := by
  simp [State.presentLanes, mem_allLanes]

/-! ### The port's bits (R19) -/

/-- The sample of a data line: its bit `k`, from the most significant, is the line's bit period
`k + 2`. -/
theorem readLine_sample_getMsbD (line : BitVec 50) {k : Nat} (hk : k < 16) :
    (readLine line).sample.getMsbD k = line.getLsbD (k + 2) := by
  simp only [readLine, BitVec.getMsbD_reverse, BitVec.getLsbD_extractLsb', hk, decide_true,
    Bool.true_and, Nat.add_comm]

theorem bitPeriod_eq_zero_iff (d : Nat) : bitPeriod d = 0 ↔ d < 30 := by
  unfold bitPeriod
  split <;> omega

theorem bitPeriod_at {b i : Nat} (hb : b < 50) (hi : i < 30 ∨ b = 49) : bitPeriod (30 * b + i) = b := by
  unfold bitPeriod
  split <;> omega

/-- In a ring of `len` positions of which the first `h` are high, one alone is low with a high one
after it: the last. -/
theorem one_rise_in_ring {len h phase : Nat} (hlow : 1 ≤ h) (hhigh : h < len) :
    ∃ i, i < len ∧ ¬ (i + phase) % len < h ∧ ((i + 1) % len + phase) % len < h ∧
      ∀ j, j < len → ¬ (j + phase) % len < h → ((j + 1) % len + phase) % len < h → j = i := by
  have hpos : 0 < len := by omega
  have next : ∀ i, ((i + 1) % len + phase) % len =
      if (i + phase) % len = len - 1 then 0 else (i + phase) % len + 1 := by
    intro i
    have hmod := Nat.mod_lt (i + phase) hpos
    rw [Nat.mod_add_mod, show i + 1 + phase = (i + phase) + 1 by omega, Nat.add_mod]
    split
    · next hlast =>
      rw [hlast]
      by_cases hone : len = 1
      · omega
      · rw [Nat.mod_eq_of_lt (a := 1) (by omega), Nat.sub_add_cancel (by omega), Nat.mod_self]
    · rw [Nat.mod_eq_of_lt (a := 1) (by omega), Nat.mod_eq_of_lt (by omega)]
  have rises : ∀ i, ¬ (i + phase) % len < h → ((i + 1) % len + phase) % len < h →
      (i + phase) % len = len - 1 := by
    intro i hi hnext
    rw [next i] at hnext
    split at hnext
    · assumption
    · omega
  refine ⟨(len - 1 + len * phase - phase) % len, Nat.mod_lt _ hpos, ?_⟩
  have hge : phase ≤ len * phase := Nat.le_mul_of_pos_left _ hpos
  have hlast : ((len - 1 + len * phase - phase) % len + phase) % len = len - 1 := by
    rw [Nat.mod_add_mod, Nat.sub_add_cancel (by omega), Nat.add_mul_mod_self_left,
      Nat.mod_eq_of_lt (by omega)]
  refine ⟨by omega, ?_, fun j hj hlowj hnextj => ?_⟩
  · rw [next, if_pos hlast]
    omega
  · have hsame : (j + phase) % len = ((len - 1 + len * phase - phase) % len + phase) % len :=
      (rises j hlowj hnextj).trans hlast.symm
    have hcongr := Nat.ModEq.add_right_cancel' phase hsame
    rw [Nat.ModEq, Nat.mod_mod, Nat.mod_eq_of_lt hj] at hcongr
    exact hcongr

/-! ### Lengths (R1) -/

theorem periodLength_eq (a : Int) (i : Nat) :
    (periodLength a i : Int) = 1500 + (if i < a.natAbs then a.sign else 0) := by
  unfold periodLength
  simp only [Config.periodCounts]
  split
  · obtain hneg | rfl | hpos := lt_trichotomy a 0
    · rw [if_neg (by omega), Int.sign_eq_neg_one_of_neg hneg]; rfl
    · omega
    · rw [if_pos hpos, Int.sign_eq_one_of_pos hpos]; rfl
  · rfl

/-- The first `n` sample periods take up trim until all of it is taken. -/
theorem sum_periodLength (a : Int) (n : Nat) :
    ((((List.range n).map (periodLength a)).sum : Nat) : Int) =
      1500 * n + a.sign * (min n a.natAbs : Nat) := by
  induction n with
  | zero => simp
  | succ n ih =>
    rw [List.range_succ, List.map_append, List.sum_append, List.map_singleton, List.sum_singleton]
    push_cast
    push_cast at ih
    rw [ih, periodLength_eq]
    split
    · next hbelow =>
      have h1 : min (n : Int) (a.natAbs : Int) = n := by omega
      have h2 : min ((n : Int) + 1) (a.natAbs : Int) = n + 1 := by omega
      push_cast at h1 h2
      rw [h1, h2]
      ring
    · next hbeyond =>
      have h1 : min (n : Int) (a.natAbs : Int) = a.natAbs := by omega
      have h2 : min ((n : Int) + 1) (a.natAbs : Int) = a.natAbs := by omega
      push_cast at h1 h2
      rw [h1, h2]
      ring

theorem sliceLength_eq {a : Int} (hlow : -40 ≤ a) : (sliceLength a : Int) = 240000 + a := by
  simp only [sliceLength, Config.sliceCounts]
  omega

/-! ### Samples (R21) -/

/-- The accumulators after a sample period of a captured slice. -/
theorem sampleLanes_accs {s : State} (lines : List (BitVec 50)) (hcapturing : s.seat.capturing = true)
    (l : Lane) : look (s.sampleLanes lines).accs l =
      if l.val < s.seat.laneCount then (look s.seat.accs l).take (answerOf lines l)
        else look s.seat.accs l := by
  rw [State.sampleLanes, if_pos hcapturing,
    look_foldl_put (fun x l => SeatCapture.sample x lines l) SeatCapture.accs
      (fun l a => a.take (answerOf lines l)) (fun _ _ => rfl) _ (presentLanes_nodup s)]
  simp only [mem_presentLanes]

/-- Sampling leaves seat capture but for its accumulators. -/
theorem sampleLanes_frame (s : State) (lines : List (BitVec 50)) :
    s.sampleLanes lines = { s.seat with accs := (s.sampleLanes lines).accs } := by
  unfold State.sampleLanes
  split
  · generalize s.seat = x
    induction s.presentLanes generalizing x with
    | nil => rfl
    | cons l ls ih => exact ih (x.sample lines l)
  · rfl

theorem Accumulator.take_of_full {a : Accumulator} (r : LaneAnswer) (hfull : 160 ≤ a.samples.length) :
    a.take r = a :=
  if_neg (Nat.not_lt.mpr hfull)

/-- A sample taken, or a missing zero in its place. -/
theorem Accumulator.take_of_room {a : Accumulator} (r : LaneAnswer) (hroom : a.samples.length < 160) :
    a.take r = { samples := a.samples ++ [if r.valid then r.sample else 0]
                 missing := a.missing + (if r.valid then 0 else 1)
                 largest := max a.largest (if r.valid then magnitude r.sample else 0) } := by
  rw [Accumulator.take, if_pos (by exact hroom)]
  split
  · simp only [Accumulator.mk.injEq, Nat.add_zero, true_and]
    split <;> omega
  · simp only [Accumulator.mk.injEq, true_and]
    omega

theorem endPeriod_eq (c : Clock) : c.endPeriod = { c with
    divider := 0, samplePos := min (c.samplePos + 1) 159
    elapsed := c.elapsed + periodLength c.applied c.samplePos } := by
  simp only [Clock.endPeriod, Clock.mk.injEq, and_true, true_and]
  split <;> omega

theorem exec_samplePeriodEnd (lines : List (BitVec 50)) {s : State} (hreset : s.resetN = true) :
    exec (.samplePeriodEnd lines) s = .next (s.periodEnd lines) :=
  congrArg Host.Outcome.next (whenRunning_high hreset _)

theorem periodEnd_eq (s : State) (lines : List (BitVec 50)) : s.periodEnd lines =
    { s with clock := { s.clock with
               divider := 0, samplePos := min (s.clock.samplePos + 1) 159
               elapsed := s.clock.elapsed + periodLength s.clock.applied s.clock.samplePos }
             seat := { s.seat with accs := (s.sampleLanes lines).accs } } := by
  rw [State.periodEnd, endPeriod_eq, sampleLanes_frame]

/-- A present lane's accumulator after a sample period, by what its data line carried. -/
theorem sampleLanes_of_line {s : State} {lines : List (BitVec 50)} {l : Lane} {line : BitVec 50}
    (hcapturing : s.seat.capturing = true) (hpresent : l.val < s.seat.laneCount)
    (hline : lines[l.val]? = some line) (hroom : (look s.seat.accs l).samples.length < 160) :
    ∃ x : Half, (∀ k, k < 16 → x.getMsbD k = line.getLsbD (k + 2)) ∧
      (look (s.sampleLanes lines).accs l).samples =
        (look s.seat.accs l).samples ++ [if line.getLsbD 1 then x else 0] ∧
      (look (s.sampleLanes lines).accs l).missing =
        (look s.seat.accs l).missing + (if line.getLsbD 1 then 0 else 1) ∧
      (look (s.sampleLanes lines).accs l).largest =
        max (look s.seat.accs l).largest (if line.getLsbD 1 then x.toInt.natAbs else 0) := by
  have hanswer : answerOf lines l = readLine line := by
    rw [answerOf, List.getD_eq_getElem?_getD, hline, Option.getD_some]
  refine ⟨(readLine line).sample, fun k hk => readLine_sample_getMsbD line hk, ?_⟩
  rw [sampleLanes_accs lines hcapturing l, if_pos hpresent, hanswer, Accumulator.take_of_room _ hroom]
  exact ⟨rfl, rfl, rfl⟩

/-- SP_BCK at a count of a bit period (R19). -/
theorem spBck_at {s : State} (hreset : s.resetN = true) {b i : Nat} (hb : b < 50)
    (hi : i < 30 ∨ b = 49) :
    ({ s with clock := { s.clock with divider := 30 * b + i } } : State).spBck =
      decide ((i + Config.bitClockPhase) % s.clock.bitPeriodLength b <
        1 + Config.bitClockHigh % (s.clock.bitPeriodLength b - 1)) := by
  simp only [State.spBck, bitPeriod_at hb hi, hreset, Bool.true_and, Nat.add_sub_cancel_left]
  rfl

theorem bitPeriodLength_range (c : Clock) (b : Nat) : 29 ≤ c.bitPeriodLength b ∧
    c.bitPeriodLength b ≤ 31 ∧ (b ≠ 49 → b < 50 → c.bitPeriodLength b = 30) := by
  have hlen : 1499 ≤ periodLength c.applied c.samplePos ∧
      periodLength c.applied c.samplePos ≤ 1501 := by
    unfold periodLength
    split
    · split <;> decide
    · decide
  unfold Clock.bitPeriodLength
  split <;> omega

theorem spBck_one_cycle {s : State} (hreset : s.resetN = true) {b : Nat} (hb : b < 50) :
    let len := s.clock.bitPeriodLength b
    let high (i : Nat) : Bool :=
      ({ s with clock := { s.clock with divider := 30 * b + i } } : State).spBck
    ∃ i, i < len ∧ high i = false ∧ high ((i + 1) % len) = true ∧
      ∀ j, j < len → high j = false → high ((j + 1) % len) = true → j = i := by
  obtain ⟨hlow, hhigh, hordinary⟩ := bitPeriodLength_range s.clock b
  dsimp only
  generalize hlen : s.clock.bitPeriodLength b = len at hlow hhigh hordinary
  have level : ∀ i, i < len →
      (({ s with clock := { s.clock with divider := 30 * b + i } } : State).spBck = true ↔
        (i + Config.bitClockPhase) % len < 1 + Config.bitClockHigh % (len - 1)) := by
    intro i hi
    rw [spBck_at hreset hb (by omega), hlen, decide_eq_true_eq]
  have hmod := Nat.mod_lt Config.bitClockHigh (show 0 < len - 1 by omega)
  have hin : ∀ i, (i + 1) % len < len := fun i => Nat.mod_lt _ (by omega)
  obtain ⟨i, hi, hoff, hon, hone⟩ := one_rise_in_ring (phase := Config.bitClockPhase)
    (show 1 ≤ 1 + Config.bitClockHigh % (len - 1) by omega)
    (show 1 + Config.bitClockHigh % (len - 1) < len by omega)
  refine ⟨i, hi, ?_, (level _ (hin i)).mpr hon, fun j hj hoffj honj => ?_⟩
  · exact Bool.eq_false_iff.mpr fun h => hoff ((level i hi).mp h)
  · exact hone j hj (fun h => Bool.eq_false_iff.mp hoffj ((level j hj).mpr h))
      ((level _ (hin j)).mp honj)

/-- Settles O6: the clauses in order are a captured slice, any other, the count position, the lengths,
and the port's two clocks. -/
theorem samplePeriodTakesEachLane : Obligations.SamplePeriodTakesEachLane := by
  refine ⟨?_, ?_, ?_, periodLength_eq, ?_, ?_, ?_, fun s b hreset hb => spBck_one_cycle hreset hb⟩
  · intro lines s hreset hcapturing _
    refine ⟨_, exec_samplePeriodEnd lines hreset, fun l line hpresent hline hroom =>
      sampleLanes_of_line hcapturing hpresent hline hroom, fun l hpresent hfull => ?_,
      fun l habsent => ?_, periodEnd_eq s lines⟩
    · exact (sampleLanes_accs lines hcapturing l).trans
        ((if_pos hpresent).trans (Accumulator.take_of_full _ hfull))
    · exact (sampleLanes_accs lines hcapturing l).trans (if_neg (Nat.not_lt.mpr habsent))
  · intro lines s hreset hcapturing
    have hsame : s.sampleLanes lines = s.seat := if_neg (by simp [hcapturing])
    rw [exec_samplePeriodEnd lines hreset, periodEnd_eq, hsame]
  · intro lines s hreset hlast
    refine ⟨_, exec_samplePeriodEnd lines hreset, ?_⟩
    simp only [State.periodEnd, Clock.position, Clock.endPeriod]
    omega
  · intro a hlow hhigh
    have hlength := sliceLength_eq hlow
    refine ⟨?_, hlength⟩
    have hsum := sum_periodLength a 160
    have htrim : a.sign * ((min 160 a.natAbs : Nat) : Int) = a := by
      rw [Nat.min_eq_right (by omega)]
      exact Int.sign_mul_natAbs a
    rw [htrim] at hsum
    omega
  · intro s hreset
    simp only [State.spFck, State.spBck, hreset, Bool.false_and, and_self]
  · intro s hreset
    simp only [State.spFck, hreset, Bool.true_and, decide_eq_true_eq, bitPeriod_eq_zero_iff]

/-! ### Levels and blocks (R22 to R24) -/

/-- The search for a level from `k` on, with no level found below it. -/
theorem levelFrom_spec {m : Nat} (hm : m < 2 ^ 16) (n k : Nat) (hk : k + n = 16)
    (hbelow : ∀ j, j < k → 2 ^ j ≤ m) :
    levelFrom m (List.range' k n) ≤ 16 ∧ m < 2 ^ levelFrom m (List.range' k n) ∧
      ∀ j, j < levelFrom m (List.range' k n) → 2 ^ j ≤ m := by
  induction n generalizing k with
  | zero =>
    obtain rfl : k = 16 := hk
    exact ⟨Nat.le_refl _, hm, hbelow⟩
  | succ n ih =>
    rw [List.range'_succ, levelFrom]
    split
    · next hfound => exact ⟨by omega, hfound, hbelow⟩
    · next hmore =>
      refine ih (k + 1) (by omega) fun j hj => ?_
      obtain hj | rfl := Nat.lt_succ_iff_lt_or_eq.mp hj
      · exact hbelow j hj
      · exact Nat.not_lt.mp hmore

theorem level_spec {m : Nat} (hm : m ≤ 32768) :
    level m ≤ 16 ∧ m < 2 ^ level m ∧ ∀ n, n < level m → 2 ^ n ≤ m :=
  levelFrom_spec (m := m) (by omega) 16 0 rfl fun _ h => nomatch h

/-- Only -32,768 has 16 significant bits. -/
theorem level_eq_sixteen_iff (h : Half) : level (magnitude h) = 16 ↔ h = 0x8000#16 := by
  constructor
  · intro hlevel
    obtain ⟨-, -, hbits⟩ := level_spec (magnitude_le h)
    have hlarge : 2 ^ 15 ≤ magnitude h := hbits 15 (by omega)
    have hlow := BitVec.le_toInt h
    have hhigh := BitVec.toInt_lt (x := h)
    refine BitVec.eq_of_toInt_eq ?_
    have hvalue : (0x8000#16).toInt = -32768 := by decide
    rw [hvalue]
    unfold magnitude at hlarge
    omega
  · rintro rfl
    decide

theorem Accumulator.take_invalid_largest (a : Accumulator) (h : Half) :
    (a.take { valid := false, sample := h }).largest = a.largest := by
  unfold Accumulator.take
  split <;> rfl

/-- Settles O7. -/
theorem blocksFromAccumulators : Obligations.BlocksFromAccumulators := by
  refine ⟨fun m hm => level_spec hm, Accumulator.take_invalid_largest, by decide, by decide, by decide,
    by decide, by decide, level_eq_sixteen_iff, ?_⟩
  intro a l t stepped unlocked c hlength
  refine ⟨rfl, ?_, rfl, rfl, decide_eq_true_iff, decide_eq_true_iff, rfl, rfl, rfl, rfl, rfl⟩
  simp only [completeBlock, Config.samplePeriods, List.length_append, List.length_replicate]
  omega

/-! ### Lane faults (R26, R27) -/

theorem satSucc_eq_min (limit n : Nat) : satSucc limit n = min (n + 1) limit := by
  unfold satSucc
  split <;> omega

/-- Settles O8: a dead or a live block of a healthy or a FAULTED lane, below the run's limit or at it. -/
theorem laneFaultRuns : Obligations.LaneFaultRuns := by
  intro f b
  refine ⟨?_, ?_, ?_, ?_, ?_, ?_⟩
  · intro hhealthy hdead hrun
    have hbelow : ¬ f.deadRun + 1 ≥ 10 := by omega
    simp [LaneFault.update, hhealthy, hdead, hbelow]
  · intro hhealthy hdead hrun
    have hat : f.deadRun + 1 ≥ 10 := by omega
    simp [LaneFault.update, hhealthy, hdead, hat, LaneFault.reset]
  · intro hhealthy hlive
    simp [LaneFault.update, hhealthy, hlive]
  · intro hfaulted hdead
    simp [LaneFault.update, hfaulted, hdead, satSucc_eq_min]
  · intro hfaulted hlive hrun
    have hbelow : ¬ f.liveRun + 1 ≥ 100 := by omega
    simp [LaneFault.update, hfaulted, hlive, hbelow, satSucc_eq_min]
  · intro hfaulted hlive hrun
    have hat : f.liveRun + 1 ≥ 100 := by omega
    simp [LaneFault.update, hfaulted, hlive, hat, satSucc_eq_min]

end Sys2Proof.Machine
end


section
/-! SUPPORT. Proofs about the measurement of the reference's frames (R8 to R11, R18) and about the two
selections (R66 to R68, R72). -/

namespace Sys2Proof.Machine

/-! ### The measured error (R8) -/

theorem measure_far (c : Clock) (l : LeadIn) (r : StationId)
    (h : 120000 ≤ (l.count : Int) - windowStart r) :
    c.measure l r = ((l.count : Int) - windowStart r - c.lengthBack l.boundaries, l.slice + 1) :=
  if_pos h

theorem measure_before (c : Clock) (l : LeadIn) (r : StationId)
    (h : (l.count : Int) - windowStart r < -120000) : c.measure l r =
      ((l.count : Int) - windowStart r + c.lengthBack (l.boundaries + 1), l.slice - 1) := by
  rw [Clock.measure, if_neg (by omega), if_pos h]

theorem measure_near (c : Clock) (l : LeadIn) (r : StationId)
    (hlow : -120000 ≤ (l.count : Int) - windowStart r)
    (hhigh : (l.count : Int) - windowStart r < 120000) :
    c.measure l r = ((l.count : Int) - windowStart r, l.slice) := by
  rw [Clock.measure, if_neg (by omega), if_neg (by omega)]

/-- Settles O13: the three ranges of the distance. -/
theorem measuredError : Obligations.MeasuredError := by
  intro c t n r
  have hstart : (windowStart r : Int) = 1200 + 10800 * (r.val : Int) := by
    rw [windowStart]; push_cast; rfl
  dsimp only
  rw [← hstart]
  refine ⟨fun hlow hhigh => ?_, fun hfar => ⟨fun happlied => ?_, ?_⟩, fun hbefore => ?_⟩
  · have hbelow : (n : Int) - windowStart r < 120000 := by omega
    exact ⟨measure_near c _ r hlow hbelow, measure_near c _ r hlow hbelow⟩
  · rw [measure_far c _ r hfar]
    have hlength : ((c.lengthBack 0 : Nat) : Int) = 240000 + c.applied := by
      simp only [Clock.lengthBack, sliceLength, Config.sliceCounts]
      omega
    rw [hlength]
  · rw [measure_far c _ r hfar]
    rfl
  · exact ⟨measure_before c _ r hbefore, measure_before c _ r hbefore⟩

/-! ### The outcome of a measurement (R9 to R11) -/

theorem alignmentDetail_eq (e : Int) (differs : Prop) [Decidable differs] :
    alignmentDetail e (decide differs) =
      if differs then 0xFFFF else BitVec.ofNat 16 (min e.natAbs 65534) := by
  simp only [alignmentDetail, decide_eq_true_eq]
  split
  · rfl
  · congr 1
    split <;> omega

/-- A differing index or an error above 90 counts. -/
theorem measureFrame_of_lost {s : State} {l : LeadIn} {r : StationId} {h : Slice}
    (hlost : h ≠ (s.clock.measure l r).2 ∨ 90 < (s.clock.measure l r).1.natAbs) :
    s.measureFrame l r h =
      (s.withClock (s.clock.enter .realign)).raise .clock .alignmentLost r.val
        (alignmentDetail (s.clock.measure l r).1 (decide (h ≠ (s.clock.measure l r).2))) :=
  if_pos hlost

/-- Any other measurement, in TRACKING and in another state. -/
theorem measureFrame_of_kept {s : State} {l : LeadIn} {r : StationId} {h : Slice}
    (hslice : h = (s.clock.measure l r).2) (herror : (s.clock.measure l r).1.natAbs ≤ 90) :
    s.measureFrame l r h =
      let trimmed := s.withClock
        { s.clock with trim := newTrim s.clock.trim (s.clock.measure l r).1 }
      if s.clock.discipline = .tracking then trimmed.countGood r (s.clock.measure l r).1
      else trimmed.countBad r (s.clock.measure l r).1 :=
  if_neg fun hlost => hlost.elim (fun hne => hne hslice) (by omega)

theorem countGood_below {s : State} (r : StationId) {e : Int} (he : e.natAbs ≤ 24)
    (hrun : s.clock.goodRun < 7) : s.countGood r e =
      s.withClock { s.clock with goodRun := s.clock.goodRun + 1 } := by
  rw [State.countGood, if_pos he, if_neg (by omega)]

theorem countGood_eighth {s : State} (r : StationId) {e : Int} (he : e.natAbs ≤ 24)
    (hrun : 7 ≤ s.clock.goodRun) : s.countGood r e =
      (s.withClock (s.clock.enter .locked)).raise .clock .locked r.val (signedDetail s.clock.trim) := by
  rw [State.countGood, if_pos he, if_pos (by omega)]

theorem countGood_broken {s : State} (r : StationId) {e : Int} (he : 24 < e.natAbs) :
    s.countGood r e = s.withClock { s.clock with goodRun := 0 } :=
  if_neg (by omega)

theorem countBad_below {s : State} (r : StationId) {e : Int} (he : 48 < e.natAbs)
    (hrun : s.clock.badRun < 3) : s.countBad r e =
      s.withClock { s.clock with badRun := s.clock.badRun + 1 } := by
  rw [State.countBad, if_pos he, if_neg (by omega)]

theorem countBad_fourth {s : State} (r : StationId) {e : Int} (he : 48 < e.natAbs)
    (hrun : 3 ≤ s.clock.badRun) : s.countBad r e =
      (s.withClock (s.clock.enter .tracking)).raise .clock .unlocked r.val
        (signedDetail s.clock.trim) := by
  rw [State.countBad, if_pos he, if_pos (by omega)]

theorem countBad_broken {s : State} (r : StationId) {e : Int} (he : e.natAbs ≤ 48) :
    s.countBad r e = s.withClock { s.clock with badRun := 0 } :=
  if_neg (by omega)

/-- Settles O14: REALIGN, or the count of the run in TRACKING or in LOCKED. -/
theorem measurementOutcome : Obligations.MeasurementOutcome := by
  intro s l r h
  refine ⟨fun hlost => ?_, fun hslice herror => ⟨fun htracking => ?_, fun hlocked => ?_⟩⟩
  · rw [measureFrame_of_lost hlost, alignmentDetail_eq]
    rfl
  · rw [measureFrame_of_kept hslice herror]
    dsimp only
    rw [if_pos htracking]
    exact ⟨fun he hrun => countGood_below r he hrun, fun he hrun => countGood_eighth r he hrun,
      fun he => countGood_broken r he⟩
  · rw [measureFrame_of_kept hslice herror]
    dsimp only
    rw [if_neg (by rw [hlocked]; decide)]
    exact ⟨fun he hrun => countBad_below r he hrun, fun he hrun => countBad_fourth r he hrun,
      fun he => countBad_broken r he⟩

/-! ### The selections (R66, R67) -/

/-- What the selections read of the state: the roster's entries and what the station reports of
itself. -/
theorem candidate_of_same {s t : State} (hid : t.control.id = s.control.id)
    (hentries : t.roster.entries = s.roster.entries) (hactivity : t.activity = s.activity)
    (k : StationId) : (t.entry k).candidate = (s.entry k).candidate := by
  unfold State.entry State.ownEntry
  rw [hid, hentries, hactivity]
  split
  · cases s.activity <;> rfl
  · rfl

theorem activity_isSome_iff (s : State) : s.activity.isSome = true ↔ s.active = true := by
  unfold State.activity State.active
  cases hmode : s.control.mode with
  | none => simp
  | some m => cases m <;> simp

/-- The own entry is a candidate exactly in RUN and IDLE (R59, R66). -/
theorem ownEntry_candidate_iff (s : State) :
    (s.entry s.control.id).candidate = true ↔ s.active = true := by
  rw [← activity_isSome_iff, State.entry, if_pos rfl, State.ownEntry]
  cases s.activity with
  | none => simp [RosterEntry.reset, RosterEntry.candidate]
  | some a => simp [RosterEntry.candidate]

theorem entry_of_other {s : State} {k : StationId} (hother : k ≠ s.control.id) :
    s.entry k = look s.roster.entries k :=
  if_neg hother

/-- In the ascending list of the IDs what stands before an ID is below it. -/
theorem allIds_split {l r : List StationId} {k : StationId} (h : allIds = l ++ k :: r) :
    (∀ j, j ∈ l ↔ j < k) ∧ ∀ j, j ∈ r ↔ k < j := by
  have hsorted : allIds.Pairwise (· < ·) := by simp [allIds]
  rw [h, List.pairwise_append] at hsorted
  obtain ⟨-, hright, hbetween⟩ := hsorted
  have hafter := (List.pairwise_cons.mp hright).1
  have hmem (j : StationId) : j ∈ l ∨ j = k ∨ j ∈ r := by
    have := mem_allIds j
    rwa [h, List.mem_append, List.mem_cons] at this
  refine ⟨fun j => ⟨fun hj => hbetween j hj k (List.mem_cons_self ..), fun hj => ?_⟩,
    fun j => ⟨hafter j, fun hj => ?_⟩⟩
  · obtain hj' | rfl | hj' := hmem j
    · exact hj'
    · exact absurd hj (lt_irrefl _)
    · exact absurd (hafter j hj') (lt_asymm hj)
  · obtain hj' | rfl | hj' := hmem j
    · exact absurd (hbetween j hj' k (List.mem_cons_self ..)) (lt_asymm hj)
    · exact absurd hj (lt_irrefl _)
    · exact hj'

/-- The first ID of the ascending list with a property is the lowest with it. -/
theorem find_allIds {p : StationId → Bool} {k : StationId} (h : allIds.find? p = some k) :
    p k = true ∧ ∀ j, j < k → p j = false := by
  obtain ⟨hk, l, r, hsplit, hl⟩ := List.find?_eq_some_iff_append.mp h
  exact ⟨hk, fun j hj => by simpa using hl j (((allIds_split hsplit).1 j).mpr hj)⟩

/-- The first ID of the descending list with a property is the highest with it. -/
theorem find_allIds_reverse {p : StationId → Bool} {k : StationId}
    (h : allIds.reverse.find? p = some k) : p k = true ∧ ∀ j, k < j → p j = false := by
  obtain ⟨hk, l, r, hsplit, hl⟩ := List.find?_eq_some_iff_append.mp h
  have hsplit' : allIds = r.reverse ++ k :: l.reverse := by
    rw [← List.reverse_reverse allIds, hsplit]
    simp
  refine ⟨hk, fun j hj => ?_⟩
  have hmem := ((allIds_split hsplit').2 j).mpr hj
  simpa using hl j (List.mem_reverse.mp hmem)

theorem find_allIds_none {p : StationId → Bool} (h : allIds.find? p = none) (k : StationId) :
    p k = false := by
  simpa using List.find?_eq_none.mp h k (mem_allIds k)

theorem find_allIds_reverse_none {p : StationId → Bool} (h : allIds.reverse.find? p = none)
    (k : StationId) : p k = false := by
  simpa using List.find?_eq_none.mp h k (List.mem_reverse.mpr (mem_allIds k))

/-- The mirror source where there may be one: the highest candidate below the own ID, else the highest
above it (R67). -/
theorem chooseMirror_of_open {s : State}
    (hopen : ¬ (s.control.charter.mirrorShare = 0 ∨ s.active = false)) : s.chooseMirror =
      match allIds.reverse.find? fun k => decide (k < s.control.id) && (s.entry k).candidate with
      | some k => some k
      | none => allIds.reverse.find? fun k => decide (s.control.id < k) && (s.entry k).candidate :=
  if_neg hopen

theorem chooseMirror_spec {s : State} {k : StationId} (hk : s.chooseMirror = some k) :
    k ≠ s.control.id ∧ (s.entry k).candidate = true ∧
    (k < s.control.id → ∀ j, k < j → j < s.control.id → (s.entry j).candidate = false) ∧
    (s.control.id < k → (∀ j, j < s.control.id → (s.entry j).candidate = false) ∧
      ∀ j, k < j → (s.entry j).candidate = false) := by
  have hopen : ¬ (s.control.charter.mirrorShare = 0 ∨ s.active = false) := by
    intro h
    rw [State.chooseMirror, if_pos h] at hk
    cases hk
  rw [chooseMirror_of_open hopen] at hk
  split at hk
  · next j hj =>
    cases hk
    obtain ⟨hp, habove⟩ := find_allIds_reverse hj
    simp only [Bool.and_eq_true, decide_eq_true_eq] at hp
    refine ⟨ne_of_lt hp.1, hp.2, fun _ j hkj hjid => ?_, fun h => absurd h (lt_asymm hp.1)⟩
    simpa [hjid] using habove j hkj
  · next hnone =>
    obtain ⟨hp, habove⟩ := find_allIds_reverse hk
    simp only [Bool.and_eq_true, decide_eq_true_eq] at hp
    refine ⟨(ne_of_lt hp.1).symm, hp.2, fun h => absurd h (lt_asymm hp.1), fun _ => ⟨?_, ?_⟩⟩
    · intro j hj
      simpa [hj] using find_allIds_reverse_none hnone j
    · intro j hj
      simpa [lt_trans hp.1 hj] using habove j hj

theorem chooseMirror_none {s : State} (hshare : 0 < s.control.charter.mirrorShare)
    (hactive : s.active = true) (hnone : s.chooseMirror = none) (j : StationId)
    (hj : j ≠ s.control.id) : (s.entry j).candidate = false := by
  have hopen : ¬ (s.control.charter.mirrorShare = 0 ∨ s.active = false) := by
    rintro (h | h)
    · omega
    · exact nomatch h.symm.trans hactive
  rw [chooseMirror_of_open hopen] at hnone
  split at hnone
  · cases hnone
  · next hbelow =>
    obtain hlt | hgt := lt_or_gt_of_ne hj
    · simpa [hlt] using find_allIds_reverse_none hbelow j
    · simpa [show s.control.id < j from hgt] using find_allIds_reverse_none hnone j

/-! ### The recomputation (R68, R6, R72) -/

/-- The clock's reaction raises UNLOCKED alone, and that from LOCKED (R6, R18). -/
theorem followReference_raised (s : State) (old new : Option StationId) :
    (s.followReference old new).raised = s.raised ++
      (if s.clock.discipline = .locked then
        [{ raiser := .clock
           notice := { kind := .unlocked, slice := s.clock.index, subject := byte (idOr255 old)
                       detail := signedDetail s.clock.trim } }]
      else []) := by
  unfold State.followReference
  dsimp only
  cases hd : s.clock.discipline <;> simp only [reduceCtorEq, if_false, if_true, List.append_nil]
  case selfRef => split <;> rfl
  case realign => split <;> rfl
  all_goals rfl

/-- A state with another reference told (R68, R72), before the clock reacts. -/
def State.tellReference (s : State) (new : Option StationId) : State :=
  (s.withRoster { s.roster with reference := new }).raise .roster .referenceChanged (idOr255 new)
    (BitVec.ofNat 16 (idOr255 s.roster.reference))

theorem presentReference_same {s : State} {new : Option StationId} (h : new = s.roster.reference) :
    s.presentReference new = s :=
  if_pos h

theorem presentReference_changed {s : State} {new : Option StationId}
    (h : new ≠ s.roster.reference) : s.presentReference new =
      if s.active then (s.tellReference new).followReference s.roster.reference new
      else s.tellReference new :=
  if_neg h

theorem presentMirror_same {s : State} {new : Option StationId} (h : new = s.roster.mirror) :
    s.presentMirror new = s :=
  if_pos h

theorem presentMirror_changed {s : State} {new : Option StationId} (h : new ≠ s.roster.mirror) :
    s.presentMirror new =
      ((s.withRoster { s.roster with mirror := new }).raise .roster .mirrorSourceChanged (idOr255 new)
        (BitVec.ofNat 16 (idOr255 s.roster.mirror))).closeRun :=
  if_neg h

theorem OnlyClock.roster {s t : State} : OnlyClock s t → t.roster = s.roster := by
  rintro ⟨_, _, rfl⟩; rfl
theorem OnlyClock.control {s t : State} : OnlyClock s t → t.control = s.control := by
  rintro ⟨_, _, rfl⟩; rfl

theorem presentReference_roster (s : State) (new : Option StationId) :
    (s.presentReference new).roster = { s.roster with reference := new } := by
  by_cases h : new = s.roster.reference
  · rw [presentReference_same h, h]
  · rw [presentReference_changed h]
    split
    · exact (followReference_frame _ _ _).roster
    · rfl

theorem presentReference_control (s : State) (new : Option StationId) :
    (s.presentReference new).control = s.control := by
  by_cases h : new = s.roster.reference
  · rw [presentReference_same h]
  · rw [presentReference_changed h]
    split
    · exact (followReference_frame _ _ _).control
    · rfl

theorem presentMirror_roster (s : State) (new : Option StationId) :
    (s.presentMirror new).roster = { s.roster with mirror := new } := by
  by_cases h : new = s.roster.mirror
  · rw [presentMirror_same h, h]
  · rw [presentMirror_changed h]
    rfl

@[simp] theorem disarmIfOwn_roster (s : State) : s.disarmIfOwn.roster = s.roster := by
  unfold State.disarmIfOwn; split <;> rfl
@[simp] theorem disarmIfOwn_raised (s : State) : s.disarmIfOwn.raised = s.raised := by
  unfold State.disarmIfOwn; split <;> rfl

/-- Both selections are those of the state before (R68). -/
theorem recompute_roster (s : State) : s.recompute.roster =
    { s.roster with reference := s.chooseReference, mirror := s.chooseMirror } := by
  rw [State.recompute, disarmIfOwn_roster, presentMirror_roster, presentReference_roster]

theorem presentReference_raised (s : State) (new : Option StationId) :
    (s.presentReference new).raised = s.raised ++
      (if new = s.roster.reference then []
      else [{ raiser := .roster
              notice := { kind := .referenceChanged, slice := s.clock.index
                          subject := byte (idOr255 new)
                          detail := BitVec.ofNat 16 (idOr255 s.roster.reference) } }] ++
        (if s.active = true ∧ s.clock.discipline = .locked then
          [{ raiser := .clock
             notice := { kind := .unlocked, slice := s.clock.index
                         subject := byte (idOr255 s.roster.reference)
                         detail := BitVec.ofInt 16 s.clock.trim } }]
        else [])) := by
  by_cases h : new = s.roster.reference
  · rw [presentReference_same h, if_pos h, List.append_nil]
  · rw [presentReference_changed h, if_neg h, ← List.append_assoc]
    cases hactive : s.active
    · simp [State.tellReference]
    · simp only [if_true, true_and]
      exact followReference_raised _ _ _

theorem presentMirror_raised (s : State) (new : Option StationId) :
    (s.presentMirror new).raised = s.raised ++
      (if new = s.roster.mirror then []
      else [{ raiser := .roster
              notice := { kind := .mirrorSourceChanged, slice := s.clock.index
                          subject := byte (idOr255 new)
                          detail := BitVec.ofNat 16 (idOr255 s.roster.mirror) } }]) := by
  by_cases h : new = s.roster.mirror
  · rw [presentMirror_same h, if_pos h, List.append_nil]
  · rw [presentMirror_changed h, if_neg h]
    rfl

theorem Clock.SameTime.index {c d : Clock} : c.SameTime d → d.index = c.index := by
  rintro ⟨_, _, _, _, _, rfl⟩; rfl

/-- What a recomputation raises, in the order of R68, R6 and R72. -/
theorem recompute_raised (s : State) : s.recompute.raised = s.raised ++
    (if s.chooseReference = s.roster.reference then []
    else [{ raiser := .roster
            notice := { kind := .referenceChanged, slice := s.clock.index
                        subject := byte (idOr255 s.chooseReference)
                        detail := BitVec.ofNat 16 (idOr255 s.roster.reference) } }] ++
      (if s.active = true ∧ s.clock.discipline = .locked then
        [{ raiser := .clock
           notice := { kind := .unlocked, slice := s.clock.index
                       subject := byte (idOr255 s.roster.reference)
                       detail := BitVec.ofInt 16 s.clock.trim } }]
      else [])) ++
    (if s.chooseMirror = s.roster.mirror then []
    else [{ raiser := .roster
            notice := { kind := .mirrorSourceChanged, slice := s.clock.index
                        subject := byte (idOr255 s.chooseMirror)
                        detail := BitVec.ofNat 16 (idOr255 s.roster.mirror) } }]) := by
  rw [State.recompute, disarmIfOwn_raised, presentMirror_raised, presentReference_raised,
    presentReference_roster, (presentReference_sameTime s _).index]

/-- Settles O17: the recomputation, the reference, the candidates, and the mirror source. -/
theorem selectionsFollowRoster : Obligations.SelectionsFollowRoster := by
  intro s
  refine ⟨recompute_roster s, recompute_raised s, fun k hk => find_allIds hk,
    fun hnone k => find_allIds_none hnone k, ownEntry_candidate_iff s, fun k hk => ?_,
    fun h => if_pos h, fun k hk => chooseMirror_spec hk,
    fun hshare hactive hnone j hj => chooseMirror_none hshare hactive hnone j hj⟩
  rw [entry_of_other hk, RosterEntry.candidate, decide_eq_true_eq, Option.isSome_iff_ne_none]

end Sys2Proof.Machine
end


section
/-! SUPPORT. Notices raised stay raised until they join the queue (R174): between two states of one command
the raised notices only grow, and REALIGNED is raised by the clock's step alone (R14, R18). -/

namespace Sys2Proof.Machine

/-- From the one state to the other notices have been raised, none of them REALIGNED. -/
def Tells (s t : State) : Prop :=
  ∃ rs, t.raised = s.raised ++ rs ∧ ∀ r ∈ rs, r.notice.kind ≠ .realigned

theorem Tells.of_eq {s t : State} (h : t.raised = s.raised) : Tells s t := ⟨[], by simpa using h, by simp⟩

theorem Tells.refl (s : State) : Tells s s := .of_eq rfl

theorem Tells.trans {s t u : State} : Tells s t → Tells t u → Tells s u := by
  rintro ⟨a, ha, hka⟩ ⟨b, hb, hkb⟩
  refine ⟨a ++ b, by rw [hb, ha, List.append_assoc], fun r hr => ?_⟩
  obtain hr | hr := List.mem_append.mp hr
  · exact hka r hr
  · exact hkb r hr

theorem Tells.raise (s : State) (b : Raiser) {k : NoticeKind} (n : Nat) (d : Half) (hk : k ≠ .realigned) :
    Tells s (s.raise b k n d) :=
  ⟨_, rfl, fun r hr => by rw [List.mem_singleton.mp hr]; exact hk⟩

theorem Tells.mem {s t : State} (h : Tells s t) {r : Raised} (hr : r ∈ s.raised) : r ∈ t.raised := by
  obtain ⟨rs, hrs, -⟩ := h
  rw [hrs]
  exact List.mem_append_left _ hr

theorem Tells.realigned {s t : State} (h : Tells s t) {r : Raised} (hr : r ∈ t.raised)
    (hk : r.notice.kind = .realigned) : r ∈ s.raised := by
  obtain ⟨rs, hrs, hother⟩ := h
  rw [hrs] at hr
  exact (List.mem_append.mp hr).resolve_right fun hnew => hother r hnew hk

theorem foldl_tells {α : Type} {f : State → α → State} (step : ∀ s a, Tells s (f s a)) (l : List α)
    (s : State) : Tells s (l.foldl f s) :=
  foldl_frame Tells.refl Tells.trans f step l s

theorem OnlyServer.tells {s t : State} : OnlyServer s t → Tells s t := by
  rintro ⟨_, rfl⟩; exact .of_eq rfl
theorem OnlyLink.tells {s t : State} (h : OnlyLink s t) : Tells s t := .of_eq h.raised

/-! ### Rings -/

theorem restartOwn_tells (s : State) (c : Half) : Tells s (s.restartOwn c) := by
  unfold State.restartOwn
  dsimp only
  split
  · exact Tells.raise (s.withRings _) _ _ _ nofun
  · exact .of_eq rfl

theorem restartMirror_tells (s : State) (c : Half) : Tells s (s.restartMirror c) := by
  unfold State.restartMirror
  dsimp only
  split
  · exact Tells.raise (s.withRings _) _ _ _ nofun
  · exact .of_eq rfl

theorem judge_tells (s : State) (p : PageRecord) : Tells s (s.judge p) := by
  unfold State.judge
  split
  · dsimp only
    split
    · exact Tells.raise (s.withRings _) _ _ _ nofun
    · exact .of_eq rfl
  · exact .refl s

theorem makeRoomOwn_tells (s : State) : Tells s s.makeRoomOwn := by
  unfold State.makeRoomOwn
  split
  · exact .refl s
  · split
    · exact .refl s
    · exact judge_tells (s.withRings _) _

theorem beginOwn_tells (s : State) (p : OwnPage) : Tells s (s.beginOwn p) := by
  unfold State.beginOwn
  refine .trans ?_ (makeRoomOwn_tells _)
  split
  · exact .refl s
  · split
    · exact .refl s
    · exact restartOwn_tells s _

theorem makeRoomMirror_tells (s : State) : Tells s s.makeRoomMirror := by
  unfold State.makeRoomMirror
  split
  · exact .refl s
  · split
    · exact .refl s
    · exact judge_tells (s.withRings _) _

theorem handover_raised (s : State) : s.handover.raised = s.raised := by
  unfold State.handover
  split <;> rfl

theorem beginMirror_tells (s : State) (p : MirrorPage) : Tells s (s.beginMirror p) := by
  unfold State.beginMirror
  refine .trans ?_ (makeRoomMirror_tells _)
  split
  · exact .refl s
  · split
    · exact restartMirror_tells s _
    · split
      · split
        · exact restartMirror_tells s _
        · exact .of_eq (handover_raised s)
      · exact .refl s

/-! ### Spans -/

theorem announce_tells (s : State) (i : SpanItem) : Tells s (s.announce i) := by
  unfold State.announce
  split
  · exact .of_eq rfl
  · split
    · exact .of_eq rfl
    · exact Tells.raise (s.withSpans _) _ _ _ nofun

theorem evict_tells (s : State) : Tells s s.evict := by
  unfold State.evict
  split
  · exact .of_eq rfl
  · split
    · exact Tells.raise (s.withSpans _) _ _ _ nofun
    · exact .refl s

theorem insertEntry_tells (s : State) (e : SpanEntry) : Tells s (s.insertEntry e) := by
  have room : Tells s (if s.spans.table.length < Config.spanCapacity then s else s.evict) := by
    split
    · exact .refl s
    · exact evict_tells s
  unfold State.insertEntry
  dsimp only
  generalize (if s.spans.table.length < Config.spanCapacity then s else s.evict) = u at room ⊢
  split
  · exact room.trans (.of_eq rfl)
  · exact room

theorem tryOpen_tells (s : State) (l : Lane) (t : Slice) (c : Condition) (b : Bool) (u : Slice) :
    Tells s (s.tryOpen l t c b u) := by
  unfold State.tryOpen
  split
  · exact .of_eq rfl
  · exact ((insertEntry_tells _ _).trans (announce_tells _ _)).trans (.of_eq rfl)

theorem closeOwn_tells (s : State) (k : SpanKey) (t : Slice) (c : CloseCause) :
    Tells s (s.closeOwn k t c) := by
  unfold State.closeOwn
  split
  · exact .refl s
  · exact announce_tells (s.withSpans _) _

theorem onsetAt_tells (s : State) (l : Lane) (b : Block) (n : Nat) (t : Slice) :
    Tells s (s.onsetAt l b n t) := by
  unfold State.onsetAt
  split
  · exact tryOpen_tells _ _ _ _ _ _
  · exact .of_eq rfl

theorem hangAt_tells (s : State) (l : Lane) (n : Nat) (t : Slice) (k : SpanKey) :
    Tells s (s.hangAt l n t k) := by
  unfold State.hangAt
  split
  · exact (closeOwn_tells _ _ _ _).trans (.of_eq rfl)
  · exact .of_eq rfl

theorem evaluate_tells (s : State) (l : Lane) (b : Block) : Tells s (s.evaluate l b) := by
  unfold State.evaluate
  split
  · exact .refl s
  · exact .refl s
  · split
    · exact onsetAt_tells _ _ _ _ _
    · exact .refl s
  · split
    · exact onsetAt_tells _ _ _ _ _
    · exact .of_eq rfl
  · split
    · exact .of_eq rfl
    · exact hangAt_tells _ _ _ _ _
  · split
    · exact .of_eq rfl
    · exact hangAt_tells _ _ _ _ _

theorem closeHeld_tells (s : State) (l : Lane) (c : CloseCause) : Tells s (s.closeHeld l c) := by
  unfold State.closeHeld
  split
  · exact closeOwn_tells _ _ _ _
  · exact closeOwn_tells _ _ _ _
  all_goals exact .refl s

theorem faultChange_tells (s : State) (l : Lane) (c : FaultChange) : Tells s (s.faultChange l c) := by
  unfold State.faultChange
  split
  · exact .refl s
  · split
    · exact .refl s
    · exact (closeHeld_tells _ _ _).trans (.of_eq rfl)
  · split
    · exact .of_eq rfl
    · exact .refl s

theorem detectChange_tells (s : State) (l : Lane) (c : Charter) : Tells s (s.detectChange l c) := by
  unfold State.detectChange
  dsimp only
  split
  · exact (closeHeld_tells _ _ _).trans (.of_eq rfl)
  · split
    · exact .of_eq rfl
    · exact .refl s

theorem splitLane_tells (s : State) (l : Lane) (p : Split) : Tells s (s.splitLane l p) := by
  unfold State.splitLane
  split
  · dsimp only
    split
    · exact (closeOwn_tells _ _ _ _).trans (.of_eq rfl)
    · exact (closeOwn_tells _ _ _ _).trans (tryOpen_tells _ _ _ _ _ _)
  · exact (closeOwn_tells _ _ _ _).trans (.of_eq rfl)
  · exact .of_eq rfl
  all_goals exact .refl s

theorem detectorLane_tells (s : State) (l : Lane) (b : Block) (c : FaultChange) (n : Option Charter)
    (p : Option Split) : Tells s (s.detectorLane l b c n p) := by
  have evaluated : Tells s (if c = .none then s.evaluate l b else s.faultChange l c) := by
    split
    · exact evaluate_tells _ _ _
    · exact faultChange_tells _ _ _
  unfold State.detectorLane
  cases n with
  | none =>
    cases p with
    | none => exact evaluated
    | some p => exact evaluated.trans (splitLane_tells _ _ _)
  | some n =>
    have changed := evaluated.trans (detectChange_tells _ l n)
    cases p with
    | none => exact changed
    | some p => exact changed.trans (splitLane_tells _ _ _)

theorem detectOnly_tells (c : Option Charter) (s : State) (l : Lane) :
    Tells s (State.detectOnly c s l) := by
  cases c with
  | none => exact .refl s
  | some c => exact detectChange_tells s l c

theorem settingsFrom_tells (s : State) (c : Charter) : Tells s (s.settingsFrom c) :=
  foldl_tells (fun u l => .of_eq (setDetector_raised u l _)) _ _

theorem insertOpen_tells (s : State) (k : StationId) (i : SpanItem) : Tells s (s.insertOpen k i) := by
  unfold State.insertOpen
  split
  · exact insertEntry_tells _ _
  · split
    · exact insertEntry_tells (s.withSpans _) _
    · exact .refl s

theorem applyOpen_tells (s : State) (k : StationId) (i : SpanItem) : Tells s (s.applyOpen k i) := by
  unfold State.applyOpen
  split
  · split
    · exact .refl s
    · exact insertOpen_tells _ _ _
  · exact .refl s

theorem applyBeaconEntry_tells (s : State) (k : StationId) (i : SpanItem) :
    Tells s (s.applyBeaconEntry k i) := by
  unfold State.applyBeaconEntry
  split
  · split
    · exact insertOpen_tells _ _ _
    · split
      · exact .of_eq rfl
      · exact .refl s
      · exact .refl s
  · exact .refl s

theorem applyBeacon_tells (s : State) (k : StationId) (es : List SpanItem) :
    Tells s (s.applyBeacon k es) :=
  foldl_tells (fun s i => applyBeaconEntry_tells s k i) _ _

theorem reopenAfterCustody_tells (s : State) (e : SpanEntry) (t : Slice) :
    Tells s (s.reopenAfterCustody e t) := by
  unfold State.reopenAfterCustody
  dsimp only
  split
  · split
    · exact tryOpen_tells _ _ _ _ _ _
    · exact .refl s
  · split
    · exact .of_eq rfl
    · exact .refl s
  all_goals exact .refl s

theorem applyClose_tells (s : State) (k : StationId) (i : SpanItem) : Tells s (s.applyClose k i) := by
  unfold State.applyClose
  split
  · exact .refl s
  · split
    · exact insertEntry_tells _ _
    · split
      · dsimp only
        split
        · exact reopenAfterCustody_tells (s.withSpans _) _ _
        · exact .of_eq rfl
      · exact .refl s

theorem applyItem_tells (s : State) (k : StationId) (i : SpanItem) : Tells s (s.applyItem k i) := by
  unfold State.applyItem
  split
  · exact applyOpen_tells _ _ _
  · exact applyClose_tells _ _ _

theorem custodyReport_tells (s : State) (k : StationId) (j t : Option Slice) :
    Tells s (s.custodyReport k j t) := by
  unfold State.custodyReport
  dsimp only
  refine .trans (foldl_tells (fun u e => ?_) _ _) (Tells.raise (State.withSpans _ _) _ _ _ nofun)
  exact announce_tells (u.withSpans _) _

theorem returnReport_tells (s : State) (k : StationId) (j : Option Slice) :
    Tells s (s.returnReport k j) := by
  unfold State.returnReport
  split
  · exact .refl s
  · exact (foldl_tells announce_tells _ _).trans (.of_eq rfl)

/-! ### Store -/

theorem stageCapture_tells (s : State) (p : OwnPage) : Tells s (s.stageCapture p) := by
  unfold State.stageCapture
  split
  · exact .of_eq rfl
  · split
    · exact .of_eq rfl
    · exact Tells.raise (s.withStore _) _ _ _ nofun

theorem stageMirror_tells (s : State) (p : MirrorPage) : Tells s (s.stageMirror p) := by
  unfold State.stageMirror
  split
  · exact .of_eq rfl
  · split
    · exact .of_eq rfl
    · exact Tells.raise (s.withStore _) _ _ _ nofun

theorem grantCapture_tells (s : State) (p : OwnPage) : Tells s (s.grantCapture p) := by
  unfold State.grantCapture
  cases hw : s.store.captureWrite with
  | some w => simp only [hw]; exact .of_eq rfl
  | none => exact (beginOwn_tells s p).trans (.of_eq rfl)

theorem grantMirror_tells (s : State) (p : MirrorPage) : Tells s (s.grantMirror p) := by
  unfold State.grantMirror
  cases hw : s.store.mirrorWrite with
  | some w => simp only [hw]; exact .of_eq rfl
  | none => exact (beginMirror_tells s p).trans (.of_eq rfl)

theorem answerClaim_tells (s : State) (f : Lookup) : Tells s (s.answerClaim f) :=
  (OnlyServer.trans (t := s.withServer { s.server with claim := none }) ⟨_, rfl⟩
    ((produceLookup_frame _ f).trans (pump_frame _))).tells

theorem grantFrom_tells (n : Nat) (s : State) : Tells s (s.grantFrom n) := by
  induction n generalizing s with
  | zero => exact .refl s
  | succ n ih =>
    unfold State.grantFrom
    split
    · exact .refl s
    · split
      · exact .refl s
      · exact .of_eq rfl
      · split
        · exact .of_eq rfl
        · split
          · exact grantCapture_tells _ _
          · split
            · split
              · exact (ih s.discardMirror)
              · exact grantMirror_tells _ _
            · split
              · split
                · exact .of_eq rfl
                all_goals exact (answerClaim_tells _ _).trans (ih _)
              · split
                · exact .of_eq rfl
                · exact .refl s

theorem grant_tells (s : State) : Tells s s.grant := grantFrom_tells _ s

theorem resplit_tells (s : State) : Tells s s.resplit :=
  ((restartOwn_tells s _).trans (restartMirror_tells _ _)).trans (.of_eq rfl)

/-! ### Roster and clock -/

theorem followReference_tells (s : State) (a b : Option StationId) :
    Tells s (s.followReference a b) := by
  refine ⟨_, followReference_raised s a b, fun r hr => ?_⟩
  split at hr
  · rw [List.mem_singleton.mp hr]; exact nofun
  · exact nomatch hr

theorem presentReference_tells (s : State) (n : Option StationId) : Tells s (s.presentReference n) := by
  by_cases h : n = s.roster.reference
  · rw [presentReference_same h]; exact .refl s
  · rw [presentReference_changed h]
    have told : Tells s (s.tellReference n) := Tells.raise (s.withRoster _) _ _ _ nofun
    split
    · exact told.trans (followReference_tells _ _ _)
    · exact told

theorem presentMirror_tells (s : State) (n : Option StationId) : Tells s (s.presentMirror n) := by
  by_cases h : n = s.roster.mirror
  · rw [presentMirror_same h]; exact .refl s
  · rw [presentMirror_changed h]
    exact (Tells.raise (s.withRoster { s.roster with mirror := n }) .roster (k := .mirrorSourceChanged)
      (idOr255 n) (BitVec.ofNat 16 (idOr255 s.roster.mirror)) nofun).trans (.of_eq rfl)

theorem recompute_tells (s : State) : Tells s s.recompute :=
  ((presentReference_tells _ _).trans (presentMirror_tells _ _)).trans (.of_eq (disarmIfOwn_raised _))

theorem losePeer_tells (s : State) (k : StationId) : Tells s (s.losePeer k) := by
  unfold State.losePeer
  dsimp only
  refine .trans ?_ (purgeRecall_frame _ _).tells
  have lost := Tells.raise (s.setEntry k { look s.roster.entries k with state := .lost }) .roster
    (k := .peerLost) k.val (sliceDetail ((look s.roster.entries k).lastHeard.getD 0)) nofun
  split
  · exact lost.trans (custodyReport_tells _ _ _ _)
  · exact lost.trans (.of_eq rfl)

theorem losePeers_tells (s : State) : Tells s s.losePeers := by
  refine foldl_tells (fun u k => ?_) _ _
  split
  · exact losePeer_tells u k
  · exact .refl u

theorem applyHeader_tells (s : State) (h : Header) (t : Option Slice) : Tells s (s.applyHeader h t) := by
  unfold State.applyHeader
  dsimp only
  refine .trans ?_ (recompute_tells _)
  have reported : Tells s (if ((s.entry h.sender).hearing h).isNew = true then
      s.reportIncarnation h.sender (s.entry h.sender) else s) := by
    split
    · unfold State.reportIncarnation
      dsimp only
      split <;> exact .of_eq rfl
    · exact .refl s
  have joined : ∀ (u : State) (c : Hearing), Tells u (match c.detail with
      | none => u
      | some d => u.raise .roster .peerJoined h.sender.val d) := by
    intro u c
    split
    · exact .refl u
    · exact Tells.raise u _ _ _ nofun
  have set : ∀ (u : State) (e : RosterEntry), Tells u (u.setEntry h.sender e) := fun _ _ => .of_eq rfl
  have heard (e : RosterEntry) := (reported.trans (set _ e)).trans (joined _ ((s.entry h.sender).hearing h))
  split
  · exact (heard _).trans (returnReport_tells _ _ _)
  · exact heard _

theorem countGood_tells (s : State) (k : StationId) (e : Int) : Tells s (s.countGood k e) := by
  unfold State.countGood
  split
  · split
    · exact Tells.raise (s.withClock _) _ _ _ nofun
    · exact .of_eq rfl
  · exact .of_eq rfl

theorem countBad_tells (s : State) (k : StationId) (e : Int) : Tells s (s.countBad k e) := by
  unfold State.countBad
  split
  · split
    · exact Tells.raise (s.withClock _) _ _ _ nofun
    · exact .of_eq rfl
  · exact .of_eq rfl

theorem measureFrame_tells (s : State) (l : LeadIn) (k : StationId) (i : Slice) :
    Tells s (s.measureFrame l k i) := by
  unfold State.measureFrame
  dsimp only
  split
  · exact Tells.raise (s.withClock _) _ _ _ nofun
  · split
    · exact countGood_tells (s.withClock _) _ _
    · exact countBad_tells (s.withClock _) _ _

theorem clockLeadIn_tells (s : State) (h : Header) (l : Option LeadIn) :
    Tells s (s.clockLeadIn h l) := by
  cases l with
  | none => exact .refl s
  | some l =>
    change Tells s (s.clockFrame h l)
    unfold State.clockFrame
    split
    · split <;> exact .of_eq rfl
    · exact .refl s
    · split
      · exact measureFrame_tells _ _ _ _
      · exact .refl s
    · split
      · exact measureFrame_tells _ _ _ _
      · exact .refl s
    · split <;> exact .of_eq rfl

theorem leaveFree_tells (s : State) : Tells s s.leaveFree := .of_eq rfl

theorem endFree_tells (s : State) (m : Option Mode) : Tells s (s.endFree m) := by
  unfold State.endFree
  split
  · exact leaveFree_tells s
  · exact .refl s

/-! ### Station controller and requests -/

theorem enforce_raised (s : State) (p : PendingCharter) : (s.enforce p).raised =
    (if p.charter.mirrorShare ≠ s.control.charter.mirrorShare then s.resplit else s).raised ++
      [{ raiser := .control
         notice := { kind := .charterAdopted, slice := s.clock.index, subject := byte p.sender.val
                     detail := sliceDetail p.charter.serial } }] := by
  unfold State.enforce
  dsimp only
  split
  · rw [← (resplit_frame s).clock]
    rfl
  · rfl

theorem enforce_tells (s : State) (p : PendingCharter) : Tells s (s.enforce p) := by
  have parted : Tells s
      (if p.charter.mirrorShare ≠ s.control.charter.mirrorShare then s.resplit else s) := by
    split
    · exact resplit_tells s
    · exact .refl s
  exact parted.trans ⟨_, enforce_raised s p, fun r hr => by rw [List.mem_singleton.mp hr]; exact nofun⟩

theorem adoptNow_tells (s : State) (p : PendingCharter) : Tells s (s.adoptNow p) := by
  have set := (enforce_tells s p).trans (settingsFrom_tells _ p.charter)
  unfold State.adoptNow
  dsimp only
  split
  · exact set.trans (recompute_tells _)
  · exact set

theorem takeCharter_tells (s : State) (k : StationId) (b : List Byte) : Tells s (s.takeCharter k b) := by
  unfold State.takeCharter
  split
  · split
    · exact Tells.raise s _ _ _ nofun
    · unfold State.judgeCharter
      dsimp only
      split
      · exact adoptNow_tells s _
      · split
        · exact .refl s
        · split
          · exact .of_eq rfl
          · split
            · exact Tells.raise s _ _ _ nofun
            · exact .refl s
  · exact .refl s

theorem judgeRecall_tells (s : State) (k : StationId) (t : Half) (a b : Byte) (f l : Slice) :
    Tells s (s.judgeRecall k t a b f l) := by
  have refused : Tells s (s.refuseRecall k t) := Tells.raise s _ _ _ nofun
  unfold State.judgeRecall
  split
  · exact refused
  · dsimp only
    split
    · exact refused
    · split
      · exact refused
      · split
        · exact refused
        · split
          · exact .refl s
          · split
            · exact refused
            · exact .of_eq rfl

theorem takeRequest_tells (s : State) (k : StationId) (r : Request) : Tells s (s.takeRequest k r) := by
  cases r with
  | charter body => exact takeCharter_tells s k body
  | condition code => exact .of_eq (congrArg State.raised (takeCondition_frame s k code).choose_spec :)
  | timeMark e d ms => exact .of_eq (congrArg State.raised (takeTimeMark_frame s k e d ms).choose_spec :)
  | probe target v =>
    change Tells s (s.takeProbe k target v)
    unfold State.takeProbe
    split
    · exact Tells.raise s _ _ _ nofun
    · exact .refl s
  | stop target => exact .of_eq (congrArg State.raised (takeStop_frame s k target).choose_spec :)
  | start target => exact .of_eq (congrArg State.raised (takeStart_frame s k target).choose_spec :)
  | archiveMark pairs =>
    exact .of_eq (congrArg State.raised (takeArchiveMark_frame s k pairs).choose_spec :)
  | recallRequest tag h src mask f l =>
    change Tells s (s.takeRecallRequest k tag h src mask f l)
    unfold State.takeRecallRequest State.takeRecall
    split
    · split
      · exact judgeRecall_tells _ _ _ _ _ _ _
      · exact .refl s
    · exact .refl s

theorem hearCondition_raised (s : State) (h : Header) : (s.hearCondition h).raised = s.raised := by
  unfold State.hearCondition
  dsimp only
  split
  · split
    · split
      · split <;> rfl
      · rfl
    · rfl
  · rfl

theorem mirrorBlocks_tells (s : State) (k : StationId) (bs : List Block) :
    Tells s (s.mirrorBlocks k bs) := by
  unfold State.mirrorBlocks
  split
  · split
    · exact .of_eq rfl
    · exact stageMirror_tells _ _
  · exact .refl s

theorem settleDefaults_tells (s : State) : Tells s s.settleDefaults := by
  unfold State.settleDefaults
  split
  · exact Tells.raise (s.withControl _) _ _ _ nofun
  · exact .refl s

theorem decideListen_tells (s : State) (b : Bool) : Tells s (s.decideListen b) := by
  unfold State.decideListen
  dsimp only
  split
  · exact (settleDefaults_tells s).trans (Tells.raise (State.withControl _ _) _ _ _ nofun)
  · exact settleDefaults_tells s

theorem changeMode_tells (s : State) (b : Bool) : Tells s (s.changeMode b) := by
  have entered : ∀ (c : Control) (m : Mode) (k : Option StationId),
      Tells s ((s.withControl c).enterMode m k) :=
    fun c m k => Tells.raise ((s.withControl c).withControl _) _ _ _ nofun
  unfold State.changeMode
  split
  · exact .refl s
  · split
    · exact entered _ _ _
    · exact .refl s
  · exact decideListen_tells (s.withControl _) b
  · split
    · exact entered _ _ _
    · exact .refl s
  · split
    · exact .refl s
    · dsimp only
      split
      · exact entered _ _ _
      · exact .of_eq rfl

theorem adoptPending_tells (s : State) : Tells s s.adoptPending := by
  unfold State.adoptPending
  split
  · exact .refl s
  · exact enforce_tells _ _

theorem changeCondition_raised (s : State) : s.changeCondition.raised = s.raised := by
  unfold State.changeCondition
  split <;> rfl

theorem controlBoundary_tells (s : State) (b : Bool) : Tells s (s.controlBoundary b) :=
  ((adoptPending_tells s).trans (.of_eq (changeCondition_raised _))).trans (changeMode_tells _ b)

/-! ### Seat capture -/

theorem settleUnsent_raised (s : State) : s.settleUnsent.raised = s.raised := by
  unfold State.settleUnsent
  split <;> rfl

theorem updateLane_tells (o : State) (p : Presented) (s : State) (l : Lane) :
    Tells s (o.updateLane p s l) := by
  unfold State.updateLane
  dsimp only
  split
  · exact .of_eq rfl
  · exact Tells.raise (s.withSeat _) _ _ _ nofun
  · exact Tells.raise (s.withSeat _) _ _ _ nofun

theorem seatBoundary_tells (s : State) (p : Presented) (q : Option Split) :
    Tells s (s.seatBoundary p q) := by
  unfold State.seatBoundary State.capturedBoundary
  dsimp only
  refine .trans (.of_eq (settleUnsent_raised s)) ?_
  split
  · refine .trans ?_ (stageCapture_tells _ _)
    exact (foldl_tells (updateLane_tells _ p) _ _).trans
      (foldl_tells (fun t l => detectorLane_tells t l _ _ _ _) _ _)
  · exact foldl_tells (fun t l => detectOnly_tells _ t l) _ _

end Sys2Proof.Machine
end


section
/-! SUPPORT. A slice boundary stage by stage, in the order of log 19: what each stage replaces, what the
station controller's state is after it, and what the next slice begins with. -/

namespace Sys2Proof.Machine

/-! ### The stages of a boundary (log 19) -/

/-- The clock has turned, and the losses have been reported. -/
def State.reported (s : State) (b : Bool) (p : Presented) (n : Nat) : State :=
  (({ s with stopN := b } : State).clockBoundary p n).ageOrphans.timeOutOrphans.ageEntries.losePeers

/-- Seat capture and the span detectors have acted. -/
def State.seated (s : State) (b : Bool) (p : Presented) (n : Nat) : State :=
  (s.reported b p n).seatBoundary p (s.splitAt b p.stepped p.ended p.next)

/-- The pending charter and the pending condition have come into force. -/
def State.adopted (s : State) (b : Bool) (p : Presented) (n : Nat) : State :=
  (s.seated b p n).adoptPending.changeCondition

/-- The station controller has acted. -/
def State.controlled (s : State) (b : Bool) (p : Presented) (n : Nat) : State :=
  (s.adopted b p n).changeMode b

/-- The selections have been made, and the clock has left FREE where LISTEN has ended. -/
def State.selected (s : State) (b : Bool) (p : Presented) (n : Nat) : State :=
  (s.controlled b p n).recompute.endFree s.control.mode

theorem boundary_eq (s : State) (b : Bool) (p : Presented) (n : Nat) :
    s.boundary b p n = (s.selected b p n).beginSlice.linkBoundary := rfl

/-! ### What each stage replaces -/

/-- Only the peers' entries, the span blocks, the recall service and the raised notices differ. -/
def OnlyPeers (s t : State) : Prop := ∃ e x v r,
  t = { s with roster := { s.roster with entries := e }, spans := x, server := v, raised := r }

theorem OnlyPeers.refl (s : State) : OnlyPeers s s := ⟨_, _, _, _, rfl⟩

theorem OnlyPeers.trans {s t u : State} : OnlyPeers s t → OnlyPeers t u → OnlyPeers s u := by
  rintro ⟨_, _, _, _, rfl⟩ ⟨_, _, _, _, rfl⟩; exact ⟨_, _, _, _, rfl⟩

theorem OnlySpans.peersFrame {s t : State} : OnlySpans s t → OnlyPeers s t := by
  rintro ⟨_, _, rfl⟩; exact ⟨_, _, _, _, rfl⟩
theorem OnlyServer.peersFrame {s t : State} : OnlyServer s t → OnlyPeers s t := by
  rintro ⟨_, rfl⟩; exact ⟨_, _, _, _, rfl⟩

theorem losePeer_onlyPeers (s : State) (k : StationId) : OnlyPeers s (s.losePeer k) := by
  unfold State.losePeer
  dsimp only
  refine .trans ?_ (purgeRecall_frame _ _).peersFrame
  split
  · exact .trans ⟨_, _, _, _, rfl⟩ (custodyReport_frame _ _ _ _).peersFrame
  · exact .trans ⟨_, _, _, _, rfl⟩ (lossReport_frame _ _ _).peersFrame

theorem losePeers_onlyPeers (s : State) : OnlyPeers s s.losePeers := by
  refine foldl_frame OnlyPeers.refl OnlyPeers.trans _ (fun u k => ?_) _ _
  split
  · exact losePeer_onlyPeers u k
  · exact .refl u

theorem reported_frame (s : State) (b : Bool) (p : Presented) (n : Nat) : ∃ c e x v r,
    s.reported b p n = { s with
      stopN := b, clock := c, roster := { s.roster with entries := e }, spans := x, server := v
      raised := r } := by
  have turned : OnlyClock { s with stopN := b } (({ s with stopN := b } : State).clockBoundary p n) := by
    unfold State.clockBoundary
    dsimp only
    split
    · obtain ⟨_, _, h⟩ := takeStep_frame
        (({ s with stopN := b } : State).withClock (s.clock.turn p.next n)) p.ended
      exact ⟨_, _, h⟩
    · exact ⟨_, _, rfl⟩
  obtain ⟨_, _, hturned⟩ := turned
  obtain ⟨_, _, _, _, hlost⟩ := losePeers_onlyPeers
    (({ s with stopN := b } : State).clockBoundary p n).ageOrphans.timeOutOrphans.ageEntries
  rw [State.reported, hlost, hturned]
  exact ⟨_, _, _, _, _, rfl⟩

/-- Only seat capture, the span blocks, the store controller and the raised notices differ. -/
def OnlyCapture (s t : State) : Prop := ∃ a x g r,
  t = { s with seat := a, spans := x, store := g, raised := r }

theorem OnlyCapture.refl (s : State) : OnlyCapture s s := ⟨_, _, _, _, rfl⟩

theorem OnlyCapture.trans {s t u : State} : OnlyCapture s t → OnlyCapture t u → OnlyCapture s u := by
  rintro ⟨_, _, _, _, rfl⟩ ⟨_, _, _, _, rfl⟩; exact ⟨_, _, _, _, rfl⟩

theorem OnlySpans.capture {s t : State} : OnlySpans s t → OnlyCapture s t := by
  rintro ⟨_, _, rfl⟩; exact ⟨_, _, _, _, rfl⟩
theorem OnlyStore.capture {s t : State} : OnlyStore s t → OnlyCapture s t := by
  rintro ⟨_, _, rfl⟩; exact ⟨_, _, _, _, rfl⟩

theorem settleUnsent_onlyCapture (s : State) : OnlyCapture s s.settleUnsent := by
  unfold State.settleUnsent
  split <;> exact ⟨_, _, _, _, rfl⟩

theorem updateLane_onlyCapture (o : State) (p : Presented) (s : State) (l : Lane) :
    OnlyCapture s (o.updateLane p s l) := by
  unfold State.updateLane
  dsimp only
  split <;> exact ⟨_, _, _, _, rfl⟩

theorem seatBoundary_onlyCapture (s : State) (p : Presented) (q : Option Split) :
    OnlyCapture s (s.seatBoundary p q) := by
  unfold State.seatBoundary State.capturedBoundary
  dsimp only
  refine (settleUnsent_onlyCapture s).trans ?_
  split
  · refine .trans ?_ (stageCapture_frame _ _).capture
    exact (foldl_frame OnlyCapture.refl OnlyCapture.trans _ (updateLane_onlyCapture _ p) _ _).trans
      (foldl_frame OnlyCapture.refl OnlyCapture.trans _
        (fun t l => (detectorLane_frame t l _ _ _ _).capture) _ _)
  · exact foldl_frame OnlyCapture.refl OnlyCapture.trans _
      (fun t l => (detectOnly_frame _ t l).capture) _ _

theorem seated_frame (s : State) (b : Bool) (p : Presented) (n : Nat) : ∃ c a e x g v r,
    s.seated b p n = { s with
      stopN := b, clock := c, seat := a, roster := { s.roster with entries := e }, spans := x
      store := g, server := v, raised := r } := by
  obtain ⟨_, _, _, _, _, h⟩ := reported_frame s b p n
  obtain ⟨_, _, _, _, h'⟩ := seatBoundary_onlyCapture (s.reported b p n) p
    (s.splitAt b p.stepped p.ended p.next)
  rw [State.seated, h', h]
  exact ⟨_, _, _, _, _, _, _, rfl⟩

theorem seated_control (s : State) (b : Bool) (p : Presented) (n : Nat) :
    (s.seated b p n).control = s.control := by
  obtain ⟨_, _, _, _, _, _, _, h⟩ := seated_frame s b p n
  rw [h]

/-- Only the entries' agreements, the rings, the store controller, the recall service, the station
controller and the raised notices differ. -/
def OnlyCharter (s t : State) : Prop := ∃ e f g v c r,
  t = { s with roster := { s.roster with entries := e }, rings := f, store := g, server := v
               control := c, raised := r }

theorem OnlyCharter.refl (s : State) : OnlyCharter s s := ⟨_, _, _, _, _, _, rfl⟩

theorem OnlyCharter.trans {s t u : State} : OnlyCharter s t → OnlyCharter t u → OnlyCharter s u := by
  rintro ⟨_, _, _, _, _, _, rfl⟩ ⟨_, _, _, _, _, _, rfl⟩; exact ⟨_, _, _, _, _, _, rfl⟩

theorem enforce_onlyCharter (s : State) (p : PendingCharter) : OnlyCharter s (s.enforce p) := by
  unfold State.enforce
  dsimp only
  split
  · obtain ⟨_, _, _, _, h⟩ := resplit_frame s
    rw [h]
    exact ⟨_, _, _, _, _, _, rfl⟩
  · exact ⟨_, _, _, _, _, _, rfl⟩

theorem adoptPending_onlyCharter (s : State) : OnlyCharter s s.adoptPending := by
  unfold State.adoptPending
  split
  · exact .refl s
  · exact enforce_onlyCharter _ _

/-- Only the station controller and the raised notices differ. -/
def OnlyControl (s t : State) : Prop := ∃ c r, t = { s with control := c, raised := r }

theorem OnlyControl.refl (s : State) : OnlyControl s s := ⟨_, _, rfl⟩

theorem OnlyControl.charter {s t : State} : OnlyControl s t → OnlyCharter s t := by
  rintro ⟨_, _, rfl⟩; exact ⟨_, _, _, _, _, _, rfl⟩

theorem changeCondition_onlyControl (s : State) : OnlyControl s s.changeCondition := by
  unfold State.changeCondition
  split <;> exact ⟨_, _, rfl⟩

theorem decideListen_onlyControl (s : State) (b : Bool) : OnlyControl s (s.decideListen b) := by
  obtain ⟨_, _, h⟩ := settleDefaults_frame s
  unfold State.decideListen
  rw [h]
  dsimp only
  split <;> exact ⟨_, _, rfl⟩

theorem changeMode_onlyControl (s : State) (b : Bool) : OnlyControl s (s.changeMode b) := by
  unfold State.changeMode
  split
  · exact .refl s
  · split <;> exact ⟨_, _, rfl⟩
  · obtain ⟨_, _, h⟩ := decideListen_onlyControl
      (s.withControl { s.control with listen := s.control.listen + 1 }) b
    exact ⟨_, _, h⟩
  · split <;> exact ⟨_, _, rfl⟩
  · split
    · exact .refl s
    · dsimp only; split <;> exact ⟨_, _, rfl⟩

theorem controlled_frame (s : State) (b : Bool) (p : Presented) (n : Nat) : ∃ c a e x f g v i r,
    s.controlled b p n = { s with
      stopN := b, clock := c, seat := a, roster := { s.roster with entries := e }, spans := x
      rings := f, store := g, server := v, control := i, raised := r } := by
  obtain ⟨_, _, _, _, _, _, _, h⟩ := seated_frame s b p n
  obtain ⟨_, _, _, _, _, _, h'⟩ := (adoptPending_onlyCharter (s.seated b p n)).trans
    ((changeCondition_onlyControl _).charter.trans (changeMode_onlyControl _ b).charter)
  rw [State.controlled, State.adopted, h', h]
  exact ⟨_, _, _, _, _, _, _, _, _, rfl⟩

/-- What the selections leave of the state before: all but the clock's discipline, the runs' OPEN mark
and the join correction. -/
theorem selected_frame (s : State) (b : Bool) (p : Presented) (n : Nat) : ∃ c a r' x f g v i r,
    s.selected b p n = { s with
      stopN := b, clock := c, seat := a, roster := r', spans := x
      rings := f, store := g, server := v, control := i, raised := r } := by
  obtain ⟨_, _, _, _, _, _, _, _, _, h⟩ := controlled_frame s b p n
  obtain ⟨_, _, _, _, _, _, h'⟩ := recompute_frame (s.controlled b p n)
  have free : OnlyClock (s.controlled b p n).recompute (s.selected b p n) := by
    unfold State.selected State.endFree
    split
    · exact ⟨_, _, rfl⟩
    · exact .refl _
  obtain ⟨_, _, h''⟩ := free
  rw [h'', h', h]
  exact ⟨_, _, _, _, _, _, _, _, _, rfl⟩

/-! ### The clock -/

/-- From the clock's actions on, a boundary keeps the time to which the clock turned. -/
theorem controlled_clock (s : State) (b : Bool) (p : Presented) (n : Nat) :
    (s.controlled b p n).clock = (({ s with stopN := b } : State).clockBoundary p n).clock := by
  simp only [State.controlled, State.adopted, State.seated, State.reported, changeMode_clock,
    changeCondition_clock, adoptPending_clock, seatBoundary_clock, losePeers_clock, ageing_clock]

theorem clockBoundary_index (s : State) (p : Presented) (n : Nat) :
    (s.clockBoundary p n).clock.index = p.next :=
  (clockBoundary_sameTime s p n).index

theorem selected_sameTime (s : State) (b : Bool) (p : Presented) (n : Nat) :
    (s.clock.turn p.next n).SameTime (s.selected b p n).clock := by
  have h := boundary_sameTime s b p n
  rwa [boundary_eq] at h

theorem adopted_clock (s : State) (b : Bool) (p : Presented) (n : Nat) :
    (s.adopted b p n).clock = (({ s with stopN := b } : State).clockBoundary p n).clock := by
  simp only [State.adopted, State.seated, State.reported, changeCondition_clock, adoptPending_clock,
    seatBoundary_clock, losePeers_clock, ageing_clock]

theorem adopted_index (s : State) (b : Bool) (p : Presented) (n : Nat) :
    (s.adopted b p n).clock.index = p.next := by
  rw [adopted_clock, clockBoundary_index]

/-! ### The station controller -/

/-- The controller's fields once a pending charter and a pending condition have come into force (R169,
R170). -/
def Control.settled (c : Control) : Control :=
  let d := match c.pendingCharter with
    | none => c
    | some p =>
      { c with status := .adopted, charter := p.charter, digest := p.digest, pendingCharter := none }
  { d with condition := c.pendingCondition.getD c.condition, pendingCondition := none }

theorem Control.settled_of_none {c : Control} (h : c.pendingCharter = none) : c.settled =
    { c with condition := c.pendingCondition.getD c.condition, pendingCondition := none } := by
  cases c
  cases h
  rfl

/-- What settling leaves of the controller's fields. -/
theorem Control.settled_frame (c : Control) : ∃ st ch d q, c.settled = { c with
    status := st, charter := ch, digest := d, pendingCharter := q
    condition := c.pendingCondition.getD c.condition, pendingCondition := none } := by
  unfold Control.settled
  split <;> exact ⟨_, _, _, _, rfl⟩

theorem changeCondition_control (s : State) : s.changeCondition.control = { s.control with
    condition := s.control.pendingCondition.getD s.control.condition, pendingCondition := none } := by
  unfold State.changeCondition
  split
  · next h => rw [h]; cases hc : s.control; rw [hc] at h; cases h; rfl
  · next c h => rw [h]; rfl

theorem adopted_control (s : State) (b : Bool) (p : Presented) (n : Nat) :
    (s.adopted b p n).control = s.control.settled := by
  rw [State.adopted, changeCondition_control, State.adoptPending, seated_control, Control.settled]
  cases hp : s.control.pendingCharter with
  | none => rw [seated_control]
  | some q => rw [enforce_control, seated_control]

/-- The controller's fields that no change of station state replaces. -/
theorem selected_control (s : State) (b : Bool) (p : Presented) (n : Nat) :
    ∃ x, (s.selected b p n).control = { (s.controlled b p n).control with correction := x } := by
  obtain ⟨_, _, _, _, _, _, h'⟩ := recompute_frame (s.controlled b p n)
  have free (u : State) (m : Option Mode) : (u.endFree m).control = u.control := by
    unfold State.endFree
    split <;> rfl
  rw [State.selected, free, h']
  exact ⟨_, rfl⟩

theorem changeMode_peers (s : State) (b : Bool) : (s.changeMode b).peers = s.peers := by
  unfold State.changeMode
  split
  · rfl
  · split <;> rfl
  · exact decideListen_peers (s.withControl { s.control with listen := s.control.listen + 1 }) b
  · split <;> rfl
  · split
    · rfl
    · dsimp only; split <;> rfl

theorem changeCondition_peers (s : State) : s.changeCondition.peers = s.peers := by
  unfold State.changeCondition
  split <;> rfl

/-! ### The end of a boundary -/

theorem boundary_control (s : State) (b : Bool) (p : Presented) (n : Nat) :
    (s.boundary b p n).control = (s.selected b p n).control := by
  rw [boundary_eq]; exact rfl
theorem boundary_clock (s : State) (b : Bool) (p : Presented) (n : Nat) :
    (s.boundary b p n).clock = (s.selected b p n).clock := by
  rw [boundary_eq]; exact rfl
theorem boundary_roster (s : State) (b : Bool) (p : Presented) (n : Nat) :
    (s.boundary b p n).roster = (s.selected b p n).roster := by
  rw [boundary_eq]; exact rfl
theorem boundary_capturing (s : State) (b : Bool) (p : Presented) (n : Nat) :
    (s.boundary b p n).seat.capturing = decide ((s.boundary b p n).control.mode = some .run) := rfl
theorem boundary_raised (s : State) (b : Bool) (p : Presented) (n : Nat) :
    (s.boundary b p n).raised = (s.selected b p n).raised := by
  rw [boundary_eq]; exact rfl

end Sys2Proof.Machine
end


section
/-! SUPPORT. What a command's end leaves as it is, and the link at a boundary: the recall window's holder
(R55, R56) and the periodic plan (R39, R40). -/

namespace Sys2Proof.Machine

/-! ### What a command's end leaves as it is -/

@[simp] theorem finish_resetN (s : State) : s.finish.resetN = s.resetN := by
  obtain ⟨_, _, _, _, _, h⟩ := finish_frame s; rw [h]
@[simp] theorem finish_stopN (s : State) : s.finish.stopN = s.stopN := by
  obtain ⟨_, _, _, _, _, h⟩ := finish_frame s; rw [h]
@[simp] theorem finish_stWait (s : State) : s.finish.stWait = s.stWait := by
  obtain ⟨_, _, _, _, _, h⟩ := finish_frame s; rw [h]
@[simp] theorem finish_seat (s : State) : s.finish.seat = s.seat := by
  obtain ⟨_, _, _, _, _, h⟩ := finish_frame s; rw [h]
@[simp] theorem finish_link (s : State) : s.finish.link = s.link := by
  obtain ⟨_, _, _, _, _, h⟩ := finish_frame s; rw [h]
@[simp] theorem finish_roster (s : State) : s.finish.roster = s.roster := by
  obtain ⟨_, _, _, _, _, h⟩ := finish_frame s; rw [h]
@[simp] theorem finish_spans (s : State) : s.finish.spans = s.spans := by
  obtain ⟨_, _, _, _, _, h⟩ := finish_frame s; rw [h]
@[simp] theorem finish_control (s : State) : s.finish.control = s.control := by
  obtain ⟨_, _, _, _, _, h⟩ := finish_frame s; rw [h]
@[simp] theorem finish_pending (s : State) : s.finish.pending = s.pending := by
  obtain ⟨_, _, _, _, _, h⟩ := finish_frame s; rw [h]

/-- A state that a command's end may have reached keeps all but the storage and the notices. -/
theorem finish_rest (s : State) : s.finish = { s with
    rings := s.finish.rings, store := s.finish.store, server := s.finish.server
    notices := s.finish.notices, freeUses := s.finish.freeUses, raised := [] } := by
  obtain ⟨_, _, _, _, _, h⟩ := finish_frame s
  rw [h]

/-- STEP_BOUNDARY while RESET_N is high and a step plan stands. -/
theorem exec_stepBoundary (stopN : Bool) {s : State} {p : StepPlan} (hreset : s.resetN = true)
    (hplan : s.clock.plan = some p) : exec (.stepBoundary stopN) s =
      .next (s.boundary stopN (s.stepTo p) p.count).finish := by
  change Host.Outcome.next _ = _
  rw [whenRunning_high hreset, State.stepBoundary, hplan]

/-- The boundary that a boundary command makes, ordinary or step, with what the clock presents. -/
theorem exec_boundary (stopN : Bool) {s : State} (hreset : s.resetN = true) :
    (s.clock.plan = none → exec (.sliceBoundary stopN) s =
      .next (s.boundary stopN s.ordinary (sliceLength s.clock.applied)).finish) ∧
    ∀ p, s.clock.plan = some p → exec (.stepBoundary stopN) s =
      .next (s.boundary stopN (s.stepTo p) p.count).finish :=
  ⟨exec_sliceBoundary stopN s hreset, fun _ hplan => exec_stepBoundary stopN hreset hplan⟩

/-! ### The grant -/

/-- A relation between states that is reflexive and transitive and holds for each of the ways the store
serves a claimant (R131) holds between the states before and after the grant. -/
theorem grantFrom_relates {P : State → State → Prop} (refl : ∀ s, P s s)
    (trans : ∀ {s t u}, P s t → P t u → P s u)
    (refresh : ∀ s, s.store.phase = .initRefresh ∨ 1 ≤ s.store.debt →
      P s (s.withStore s.store.startRefresh))
    (capture : ∀ s p, P s (s.grantCapture p)) (mirror : ∀ s p, P s (s.grantMirror p))
    (discard : ∀ s, P s s.discardMirror)
    (read : ∀ s c p pos, s.server.claim = some c → P s (s.grantRead c p pos))
    (answer : ∀ s f c, s.server.claim = some c → P s (s.answerClaim f)) (n : Nat) (s : State) :
    P s (s.grantFrom n) := by
  induction n generalizing s with
  | zero => exact refl s
  | succ n ih =>
    unfold State.grantFrom
    split
    · exact refl s
    · split
      · exact refl s
      · next h => exact refresh s (.inl h)
      · split
        · exact refresh s (.inr (by omega))
        · split
          · exact capture s _
          · split
            · split
              · exact trans (discard s) (ih _)
              · exact mirror s _
            · split
              · next c pos hclaim _ =>
                split
                · exact read s c _ pos hclaim
                all_goals exact trans (answer s _ c hclaim) (ih _)
              · split
                · next h => exact refresh s (.inr h)
                · exact refl s

/-- What the grant can change: the rings, the operation with the debt, the page writes and mirror staging,
and what the recall service reads and has read. -/
def OnlyGrant (s t : State) : Prop := ∃ g op debt pages cw mw buffer pos claim flight r,
  t = { s with
    rings := g
    store := { s.store with
      op := op, debt := debt, mirror := pages, captureWrite := cw, mirrorWrite := mw }
    server := { s.server with buffer := buffer, pos := pos, claim := claim, inFlight := flight }
    raised := r }

theorem OnlyGrant.refl (s : State) : OnlyGrant s s := ⟨_, _, _, _, _, _, _, _, _, _, _, rfl⟩

theorem OnlyGrant.trans {s t u : State} : OnlyGrant s t → OnlyGrant t u → OnlyGrant s u := by
  rintro ⟨_, _, _, _, _, _, _, _, _, _, _, rfl⟩ ⟨_, _, _, _, _, _, _, _, _, _, _, rfl⟩
  exact ⟨_, _, _, _, _, _, _, _, _, _, _, rfl⟩

/-- Production changes the buffer, the read position and the claim (R144 to R147). -/
theorem pumpFrom_frame (n : Nat) (r : Recall) :
    ∃ a b c, Recall.pumpFrom n r = { r with buffer := a, pos := b, claim := c } := by
  induction n generalizing r with
  | zero => exact ⟨_, _, _, rfl⟩
  | succ n ih =>
    unfold Recall.pumpFrom
    split
    · exact ⟨_, _, _, rfl⟩
    · split
      · split <;> exact ⟨_, _, _, rfl⟩
      · split
        · exact ⟨_, _, _, rfl⟩
        · split
          · dsimp only
            obtain ⟨_, _, _, h⟩ := ih { r.produce _ (r.doneItem _) .done with
              pos := some (r.afterDone _) }
            exact ⟨_, _, _, h⟩
          · exact ⟨_, _, _, rfl⟩

theorem Recall.pump_frame (r : Recall) : ∃ a b c, r.pump = { r with buffer := a, pos := b, claim := c } := by
  unfold Recall.pump
  split
  · exact pumpFrom_frame _ r
  · exact ⟨_, _, _, rfl⟩

theorem OnlyRings.onlyGrant {s t : State} : OnlyRings s t → OnlyGrant s t := by
  rintro ⟨_, _, rfl⟩
  exact ⟨_, _, _, _, _, _, _, _, _, _, _, rfl⟩

/-- A capture page's write goes on with its next slot. -/
theorem grantCapture_begun {s : State} (p : OwnPage) {w : PageWrite} (hw : s.store.captureWrite = some w) :
    s.grantCapture p = s.withStore { s.store with
      op := some (.writeSlot .capture w.place w.lane (s.captureSlot p w.lane) true) } := by
  unfold State.grantCapture
  simp only [hw]
  rfl

/-- A capture page's write begins, after the own ring has acted (R103, R105). -/
theorem grantCapture_first {s : State} (p : OwnPage) (hw : s.store.captureWrite = none) :
    s.grantCapture p = (s.beginOwn p).withStore { s.store with
      captureWrite := some { place := (s.beginOwn p).rings.own.nextPlace, lane := 0 }
      op := some (.writeSlot .capture (s.beginOwn p).rings.own.nextPlace 0 (s.captureSlot p 0) true) } := by
  obtain ⟨_, _, h⟩ := beginOwn_frame s p
  unfold State.grantCapture
  simp only [hw, h]
  rfl

/-- A mirror page's write goes on with its next slot. -/
theorem grantMirror_begun {s : State} (p : MirrorPage) {w : PageWrite} (hw : s.store.mirrorWrite = some w) :
    s.grantMirror p = s.withStore { s.store with
      op := some (.writeSlot .mirror (s.ownCap + w.place) w.lane (mirrorSlot p w.lane) true) } := by
  unfold State.grantMirror
  simp only [hw]
  rfl

/-- A mirror page's write begins, after the mirror ring has acted (R103, R109). -/
theorem grantMirror_first {s : State} (p : MirrorPage) (hw : s.store.mirrorWrite = none) :
    s.grantMirror p = (s.beginMirror p).withStore { s.store with
      mirrorWrite := some { place := (s.beginMirror p).rings.mirror.nextPlace, lane := 0 }
      op := some (.writeSlot .mirror (s.ownCap + (s.beginMirror p).rings.mirror.nextPlace) 0
        (mirrorSlot p 0) true) } := by
  obtain ⟨_, _, h⟩ := beginMirror_frame s p
  unfold State.grantMirror
  simp only [hw, h]
  rfl

theorem grantCapture_onlyGrant (s : State) (p : OwnPage) : OnlyGrant s (s.grantCapture p) := by
  cases hw : s.store.captureWrite with
  | some w => rw [grantCapture_begun p hw]; exact ⟨_, _, _, _, _, _, _, _, _, _, _, rfl⟩
  | none =>
    obtain ⟨_, _, h⟩ := beginOwn_frame s p
    rw [grantCapture_first p hw, h]
    exact ⟨_, _, _, _, _, _, _, _, _, _, _, rfl⟩

theorem grantMirror_onlyGrant (s : State) (p : MirrorPage) : OnlyGrant s (s.grantMirror p) := by
  cases hw : s.store.mirrorWrite with
  | some w => rw [grantMirror_begun p hw]; exact ⟨_, _, _, _, _, _, _, _, _, _, _, rfl⟩
  | none =>
    obtain ⟨_, _, h⟩ := beginMirror_frame s p
    rw [grantMirror_first p hw, h]
    exact ⟨_, _, _, _, _, _, _, _, _, _, _, rfl⟩

theorem answerClaim_onlyGrant (s : State) (f : Lookup) : OnlyGrant s (s.answerClaim f) := by
  have produced (u : State) : ∃ a b, u.produceLookup f =
      { u with server := { u.server with buffer := a, pos := b } } := by
    unfold State.produceLookup
    split
    · exact ⟨_, _, rfl⟩
    · split
      · exact ⟨_, _, rfl⟩
      · exact ⟨_, _, rfl⟩
  obtain ⟨_, _, h⟩ := produced (s.withServer { s.server with claim := none })
  rw [State.answerClaim, h, State.pump]
  obtain ⟨_, _, _, h'⟩ := Recall.pump_frame
    ({ s.withServer { s.server with claim := none } with server := { s.server with
        claim := none, buffer := _, pos := _ } } : State).server
  exact ⟨_, _, _, _, _, _, _, _, _, _, _, congrArg _ h'⟩

theorem grantFrom_onlyGrant (n : Nat) (s : State) : OnlyGrant s (s.grantFrom n) :=
  grantFrom_relates OnlyGrant.refl OnlyGrant.trans (fun _ _ => ⟨_, _, _, _, _, _, _, _, _, _, _, rfl⟩)
    grantCapture_onlyGrant grantMirror_onlyGrant (fun _ => ⟨_, _, _, _, _, _, _, _, _, _, _, rfl⟩)
    (fun _ _ _ _ _ => ⟨_, _, _, _, _, _, _, _, _, _, _, rfl⟩) (fun s f _ _ => answerClaim_onlyGrant s f)
    n s

theorem grant_onlyGrant (s : State) : OnlyGrant s s.grant := grantFrom_onlyGrant _ s

/-- With no claim presented the grant leaves the recall service as it is (R133). -/
theorem grant_server {s : State} (hclaim : s.server.claim = none) : s.grant.server = s.server := by
  have rings {u t : State} : OnlyRings u t → t.server = u.server := by
    rintro ⟨_, _, rfl⟩; rfl
  refine grantFrom_relates
    (P := fun s t => s.server.claim = none → t.server = s.server) (fun _ _ => rfl)
    (fun h h' hs => (h' ((congrArg _ (h hs)).trans hs)).trans (h hs)) (fun _ _ _ => rfl)
    (fun u p _ => ?_) (fun u p _ => ?_) (fun _ _ => rfl) (fun u c p pos hc hnone => ?_)
    (fun u f c hc hnone => ?_) _ s hclaim
  · cases hw : u.store.captureWrite with
    | some w => rw [grantCapture_begun p hw]; rfl
    | none => rw [grantCapture_first p hw]; exact (rings (beginOwn_frame u p) :)
  · cases hw : u.store.mirrorWrite with
    | some w => rw [grantMirror_begun p hw]; rfl
    | none => rw [grantMirror_first p hw]; exact (rings (beginMirror_frame u p) :)
  · exact nomatch hc.symm.trans hnone
  · exact nomatch hc.symm.trans hnone

/-- What a command's end leaves of the store controller and of the recall service. -/
theorem finish_kept (s : State) : s.finish.store.capture = s.store.capture ∧
    s.finish.store.peak = s.store.peak ∧ s.finish.store.row = s.store.row ∧
    s.finish.store.phase = s.store.phase ∧ s.finish.store.ticks = s.store.ticks ∧
    s.finish.store.initDone = s.store.initDone ∧ s.finish.store.drops = s.store.drops ∧
    s.finish.server.queue = s.server.queue ∧ s.finish.server.cursor = s.server.cursor ∧
    s.finish.server.holds = s.server.holds ∧ s.finish.server.reading = s.server.reading := by
  obtain ⟨_, _, _, _, _, _, _, _, _, _, _, h⟩ := grant_onlyGrant s
  rw [State.finish, settleNotices_store, settleNotices_server, h]
  exact ⟨rfl, rfl, rfl, rfl, rfl, rfl, rfl, rfl, rfl, rfl, rfl⟩

@[simp] theorem finish_capture (s : State) : s.finish.store.capture = s.store.capture :=
  (finish_kept s).1
@[simp] theorem finish_holds (s : State) : s.finish.server.holds = s.server.holds := by
  obtain ⟨-, -, -, -, -, -, -, -, -, h, -⟩ := finish_kept s
  exact h
@[simp] theorem finish_queue (s : State) : s.finish.server.queue = s.server.queue := by
  obtain ⟨-, -, -, -, -, -, -, h, -⟩ := finish_kept s
  exact h

/-! ### The link at a boundary -/

theorem linkBoundary_link (s : State) : s.linkBoundary.link =
    s.link.boundary s.control.id s.clock.index := rfl
theorem beginSlice_onlySeat (s : State) : ∃ a, s.beginSlice = { s with seat := a } := ⟨_, rfl⟩

theorem changeMode_id (s : State) (b : Bool) : (s.changeMode b).control.id = s.control.id :=
  congrArg Prod.fst (changeMode_peers s b)

theorem selected_id (s : State) (b : Bool) (p : Presented) (n : Nat) :
    (s.selected b p n).control.id = s.control.id := by
  obtain ⟨x, hx⟩ := selected_control s b p n
  obtain ⟨_, _, _, _, hsettled⟩ := s.control.settled_frame
  rw [hx, State.controlled, changeMode_id, adopted_control, hsettled]

/-- The link's fields after a boundary (R56). -/
theorem boundary_link (s : State) (b : Bool) (p : Presented) (n : Nat) :
    (s.boundary b p n).link = s.link.boundary s.control.id p.next := by
  have hindex : (s.selected b p n).clock.index = p.next := (selected_sameTime s b p n).index
  have hid := selected_id s b p n
  obtain ⟨_, _, _, _, _, _, _, _, _, h⟩ := selected_frame s b p n
  have hlink : (s.selected b p n).link = s.link := by rw [h]
  obtain ⟨_, hbegun⟩ := beginSlice_onlySeat (s.selected b p n)
  rw [boundary_eq, linkBoundary_link, hbegun, ← hid, ← hindex, ← hlink]

theorem boundary_id (s : State) (b : Bool) (p : Presented) (n : Nat) :
    (s.boundary b p n).control.id = s.control.id := selected_id s b p n

theorem boundary_holds (s : State) (b : Bool) (p : Presented) (n : Nat) :
    (s.boundary b p n).server.holds =
      decide ((s.boundary b p n).link.holder = some (s.boundary b p n).control.id) := by
  obtain ⟨_, _, _, h⟩ := Recall.pump_frame { (s.selected b p n).beginSlice.server with
    holds := decide ((s.boundary b p n).link.holder = some (s.boundary b p n).control.id)
    reading := decide ((s.boundary b p n).link.holder = some (s.boundary b p n).control.id)
    claim := if decide ((s.boundary b p n).link.holder = some (s.boundary b p n).control.id) then
      (s.selected b p n).beginSlice.server.claim else none }
  exact congrArg Recall.holds h

/-! ### The holder (R55) -/

/-- The distance of the claimants from H in the order of R55. -/
theorem rotation_index (h i : StationId) : h + 1 + i - h - 1 = i := by
  revert h i
  decide

theorem nextHolder_nil (h : StationId) : nextHolder h [] = none := by
  simp [nextHolder, allIds]

/-- The first claimant in the order H + 1 up to 15, then 0 up to H. -/
theorem nextHolder_spec (h : StationId) {c : List StationId} (hc : c ≠ []) :
    ∃ k, nextHolder h c = some k ∧ k ∈ c ∧ ∀ j ∈ c, (k - h - 1).val ≤ (j - h - 1).val := by
  obtain ⟨j, hj⟩ := List.exists_mem_of_ne_nil c hc
  have rotated (j : StationId) : h + 1 + (j - h - 1) = j := by
    revert h j
    decide
  have hfound : (nextHolder h c).isSome = true := by
    simp only [nextHolder, List.find?_isSome, List.mem_map, decide_eq_true_eq]
    exact ⟨j, ⟨j - h - 1, mem_allIds _, rotated j⟩, hj⟩
  obtain ⟨k, hk⟩ := Option.isSome_iff_exists.mp hfound
  refine ⟨k, hk, by simpa using List.find?_some hk, fun j hj => ?_⟩
  rw [nextHolder, List.find?_map, Option.map_eq_some_iff] at hk
  obtain ⟨i, hi, rfl⟩ := hk
  obtain ⟨-, hbefore⟩ := find_allIds hi
  rw [rotation_index]
  refine Nat.le_of_not_lt fun hlt => ?_
  have hnot := hbefore _ hlt
  simp only [Function.comp_apply, rotated, hj, decide_true, Bool.true_eq_false] at hnot

/-- Settles O51: the rotation, and the link's boundary in both kinds of boundary. -/
theorem recallHolderRotates : Obligations.RecallHolderRotates := by
  have held (s : State) (b : Bool) (p : Presented) (n : Nat) :
      (s.boundary b p n).finish.link.holder = nextHolder s.link.lastHolder s.link.claims ∧
      (s.boundary b p n).finish.link.claims = [] ∧
      (s.boundary b p n).finish.link.lastHolder = s.link.lastHolder ∧
      (s.boundary b p n).finish.server.holds = decide ((s.boundary b p n).finish.link.holder =
        some (s.boundary b p n).finish.control.id) := by
    simp only [finish_link, finish_control, finish_holds, boundary_holds, boundary_link, and_true]
    exact ⟨rfl, rfl, rfl⟩
  exact ⟨nextHolder_nil, fun h _ hc => nextHolder_spec h hc,
    fun b s hreset hplan => ⟨_, exec_sliceBoundary b s hreset hplan, held s b _ _⟩,
    fun b s p hreset hplan => ⟨_, exec_stepBoundary b hreset hplan, held s b _ _⟩⟩

/-! ### The periodic plan (R39, R40) -/

theorem mem_markDue (id : StationId) (slice : Slice) (due : List PlanItem) (p : PlanItem) :
    p ∈ markDue id slice due ↔ p ∈ due ∨ slice.toNat % planPeriod p = planOffset p id := by
  have hall : p ∈ planItems := by cases p <;> decide
  simp [markDue, fallsDue, hall]

theorem boundary_due (s : State) (b : Bool) (p : Presented) (n : Nat) (i : PlanItem) :
    i ∈ (s.boundary b p n).finish.link.due ↔
      i ∈ s.link.due ∨ p.next.toNat % planPeriod i = planOffset i s.control.id := by
  rw [finish_link, boundary_link]
  exact mem_markDue _ _ _ _

/-- Settles O52: each item's period and offset, at both kinds of boundary. -/
theorem periodicItemsFallDue : Obligations.PeriodicItemsFallDue := by
  intro b s hreset
  have due (p : Presented) (n : Nat) (i : PlanItem) := boundary_due s b p n i
  exact ⟨fun hplan => ⟨_, exec_sliceBoundary b s hreset hplan, due _ _ .spanBeacon,
      due _ _ .rosterView, due _ _ .mirrorRuns, due _ _ .counterReport⟩,
    fun p hplan => ⟨_, exec_stepBoundary b hreset hplan, due _ _ .spanBeacon, due _ _ .rosterView,
      due _ _ .mirrorRuns, due _ _ .counterReport⟩⟩

end Sys2Proof.Machine
end


section
/-! SUPPORT. The clock and the roster's counts after a slice boundary, ordinary (R1 to R3, R64) and step
(R14, R15). -/

namespace Sys2Proof.Machine

/-! ### The silence counts (R64, R65) -/

theorem clockBoundary_onlyClock (s : State) (p : Presented) (n : Nat) :
    OnlyClock s (s.clockBoundary p n) := by
  unfold State.clockBoundary
  dsimp only
  split
  · obtain ⟨_, _, h⟩ := takeStep_frame (s.withClock (s.clock.turn p.next n)) p.ended
    exact ⟨_, _, h⟩
  · exact ⟨_, _, rfl⟩

/-- The roster and the controller as the losses of a boundary meet them. -/
theorem aged_roster (s : State) (b : Bool) (p : Presented) (n : Nat) :
    let u := (({ s with stopN := b } : State).clockBoundary p n).ageOrphans.timeOutOrphans.ageEntries
    u.control = s.control ∧ ∀ k, look u.roster.entries k = (look s.roster.entries k).age := by
  obtain ⟨_, _, h⟩ := clockBoundary_onlyClock { s with stopN := b } p n
  rw [h]
  exact ⟨rfl, fun k => look_map _ _ _⟩

/-- The entries after the losses of a boundary. -/
theorem reported_entries (s : State) (b : Bool) (p : Presented) (n : Nat) (k : StationId) :
    look (s.reported b p n).roster.entries k =
      if k ≠ s.control.id ∧ (look s.roster.entries k).state = .present ∧
          s.control.charter.lossSlices < (look s.roster.entries k).silence + 1
      then { (look s.roster.entries k).age with state := .lost } else (look s.roster.entries k).age := by
  obtain ⟨hcontrol, hentries⟩ := aged_roster s b p n
  obtain ⟨-, -, -, hlost⟩ := losePeers_roster
    (({ s with stopN := b } : State).clockBoundary p n).ageOrphans.timeOutOrphans.ageEntries
  rw [State.reported, hlost, State.isLost, hcontrol, hentries]
  by_cases hpresent : (look s.roster.entries k).state = .present
  · simp [RosterEntry.age, hpresent]
  · simp [RosterEntry.age, hpresent]

theorem endFree_onlyClock (s : State) (m : Option Mode) : OnlyClock s (s.endFree m) := by
  unfold State.endFree
  split
  · exact leaveFree_frame s
  · exact .refl s

theorem selected_peers (s : State) (b : Bool) (p : Presented) (n : Nat) :
    (s.selected b p n).peers = (s.reported b p n).peers := by
  rw [State.selected, (endFree_onlyClock _ _).peers, (recompute_frame _).peers, State.controlled,
    changeMode_peers, State.adopted, changeCondition_peers, adoptPending_peers, State.seated,
    seatBoundary_peers]

theorem boundary_counts (s : State) (b : Bool) (p : Presented) (n : Nat) (k : StationId) :
    (look (s.boundary b p n).roster.entries k).state = (look (s.reported b p n).roster.entries k).state ∧
    (look (s.boundary b p n).roster.entries k).silence =
      (look (s.reported b p n).roster.entries k).silence := by
  have h := congrArg (fun x => x.2 k) (selected_peers s b p n)
  simpa only [State.peers, Prod.mk.injEq, boundary_roster] using h

/-- A PRESENT entry's count rises, and a peer whose count then exceeds the limit goes LOST. -/
theorem boundary_present (s : State) (b : Bool) (p : Presented) (n : Nat) {k : StationId}
    (hpresent : (look s.roster.entries k).state = .present) :
    (look (s.boundary b p n).roster.entries k).silence = (look s.roster.entries k).silence + 1 ∧
    (look (s.boundary b p n).roster.entries k).state =
      (if k ≠ s.control.id ∧ s.control.charter.lossSlices < (look s.roster.entries k).silence + 1
        then .lost else .present) := by
  obtain ⟨hstate, hsilence⟩ := boundary_counts s b p n k
  rw [hstate, hsilence, reported_entries]
  simp only [hpresent, true_and, RosterEntry.age, if_true]
  constructor
  · split <;> rfl
  · split
    · rfl
    · rfl

/-- Any other entry keeps its count. -/
theorem boundary_absent (s : State) (b : Bool) (p : Presented) (n : Nat) {k : StationId}
    (habsent : (look s.roster.entries k).state ≠ .present) :
    (look (s.boundary b p n).roster.entries k).silence = (look s.roster.entries k).silence ∧
    (look (s.boundary b p n).roster.entries k).state = (look s.roster.entries k).state := by
  obtain ⟨hstate, hsilence⟩ := boundary_counts s b p n k
  rw [hstate, hsilence, reported_entries]
  simp [habsent, RosterEntry.age]

/-! ### The step plan -/

/-- The clock's reaction to a new reference makes no plan (R6). -/
theorem presentReference_plan {s : State} (n : Option StationId) (hplan : s.clock.plan = none) :
    (s.presentReference n).clock.plan = none := by
  by_cases h : n = s.roster.reference
  · rw [presentReference_same h]; exact hplan
  · rw [presentReference_changed h]
    split
    · unfold State.followReference
      dsimp only
      split
      · exact hplan
      · split <;> exact hplan
      · exact hplan
      · exact hplan
      · split <;> rfl
    · exact hplan

theorem recompute_clock (s : State) :
    s.recompute.clock = (s.presentReference s.chooseReference).clock := by
  rw [State.recompute, disarmIfOwn_clock, presentMirror_clock]

theorem endFree_plan (s : State) (m : Option Mode) : (s.endFree m).clock.plan = s.clock.plan := by
  unfold State.endFree
  split <;> rfl

theorem selected_plan {s : State} (b : Bool) (p : Presented) (n : Nat)
    (hplan : (({ s with stopN := b } : State).clockBoundary p n).clock.plan = none) :
    (s.selected b p n).clock.plan = none := by
  rw [State.selected, endFree_plan, recompute_clock]
  exact presentReference_plan _ (by rw [controlled_clock]; exact hplan)

theorem ordinary_clock (s : State) (b : Bool) (n : Nat) :
    (({ s with stopN := b } : State).clockBoundary s.ordinary n).clock =
      s.clock.turn (s.clock.index + 1) n := rfl

theorem stepTo_clockBoundary (s : State) (b : Bool) (q : StepPlan) (n : Nat) :
    ({ s with stopN := b } : State).clockBoundary (s.stepTo q) n =
      (({ s with stopN := b } : State).withClock (s.clock.turn q.index n)).takeStep s.clock.index :=
  rfl

theorem takeStep_plan (s : State) (cut : Slice) : (s.takeStep cut).clock.plan = none := by
  unfold State.takeStep
  split <;> rfl

/-! ### SLICE_BOUNDARY -/

/-- The fields of the time to which the clock has turned (R3). -/
theorem boundary_time (s : State) (b : Bool) (p : Presented) (n : Nat) :
    (s.boundary b p n).clock.index = p.next ∧ (s.boundary b p n).clock.applied = s.clock.trim ∧
    (s.boundary b p n).clock.trim = s.clock.trim ∧ (s.boundary b p n).clock.samplePos = 0 ∧
    (s.boundary b p n).clock.divider = 0 ∧ (s.boundary b p n).clock.position = 0 ∧
    (s.boundary b p n).clock.lastIndex = some s.clock.index ∧ (s.boundary b p n).clock.lastLen = n ∧
    (s.boundary b p n).clock.prevLen = s.clock.lastLen ∧ (s.boundary b p n).clock.mark = s.clock.mark := by
  obtain ⟨_, _, _, _, _, h⟩ := boundary_sameTime s b p n
  rw [h]
  exact ⟨rfl, rfl, rfl, rfl, rfl, rfl, rfl, rfl, rfl, rfl⟩

/-- The pins, the line and what waits, after a boundary command. -/
theorem boundary_rest (s : State) (b : Bool) (p : Presented) (n : Nat) :
    let t := (s.boundary b p n).finish
    t.stopN = b ∧ t.stWait = s.stWait ∧ t.resetN = s.resetN ∧ t.dram = s.dram ∧ t.pending = s.pending ∧
    t.link.tx = s.link.tx ∧ t.link.flight = s.link.flight ∧ t.link.rx = s.link.rx ∧
    t.link.rejects = s.link.rejects ∧ t.link.collisions = s.link.collisions := by
  have h := boundary_frame s b p n
  simp only [finish_stopN, finish_stWait, finish_resetN, finish_dram, finish_pending, finish_link,
    boundary_link, h.stopN, h.stWait, h.resetN, h.dram, h.pending, Link.boundary, and_self]

/-- Settles O9: the clock's time, the capture of the new slice, the rest, and the silence counts. -/
theorem sliceBoundaryBeginsNextSlice : Obligations.SliceBoundaryBeginsNextSlice := by
  refine ⟨fun b s hreset hplan => ⟨_, exec_sliceBoundary b s hreset hplan, ?_⟩, fun b s p hplan => ?_⟩
  · obtain ⟨hindex, happlied, htrim, hsample, hdivider, hposition, hlast, hlen, hprev, hmark⟩ :=
      boundary_time s b s.ordinary (sliceLength s.clock.applied)
    obtain ⟨hstop, hwait, hhigh, hdram, hpending, htx, hflight, hrx, hrejects, hcollisions⟩ :=
      boundary_rest s b s.ordinary (sliceLength s.clock.applied)
    simp only [finish_clock, finish_seat, finish_control, finish_roster]
    refine ⟨hindex, happlied, htrim, hsample, hdivider, hposition, hlast, hlen, hprev, hmark,
      selected_plan b _ _ hplan, ?_, fun l => look_replicate _ l, hstop, hwait, hhigh.trans hreset,
      hdram, hpending, htx, hflight, hrx, hrejects, hcollisions,
      fun k hk => boundary_present s b _ _ hk, fun k hk => boundary_absent s b _ _ hk⟩
    rw [boundary_capturing, decide_eq_true_eq]
  · change Host.Outcome.next _ = _
    rw [State.whenRunning]
    split
    · rw [State.sliceBoundary, hplan]
    · rfl

/-! ### STEP_BOUNDARY -/

theorem takeStep_free {s : State} (cut : Slice) (hfree : s.clock.discipline = .free) :
    s.takeStep cut = s.withClock { s.clock with plan := none, aligned := true } :=
  if_pos hfree

theorem takeStep_realign {s : State} (cut : Slice) (h : s.clock.discipline ≠ .free) :
    s.takeStep cut = (s.withClock { s.clock.enter .tracking with plan := none }).raise .clock .realigned
      (idOr255 s.roster.reference) (jumpDetail cut s.clock.index) :=
  if_neg h

theorem jumpDetail_eq (cut new : Slice) : jumpDetail cut new =
    BitVec.ofInt 16 (max (-32768) (min 32767 (sliceDiff new (cut + 1)))) := by
  rw [jumpDetail, signedDetail, clampInt_eq_max_min _ _ _ (by decide)]

/-- Outside RUN and IDLE this station is not its own reference (R59, R66). -/
theorem chooseReference_of_inactive {s : State} (hinactive : s.active = false) :
    s.chooseReference ≠ some s.control.id := by
  intro hself
  have hcandidate := (ownEntry_candidate_iff s).mp (find_allIds hself).1
  rw [hinactive] at hcandidate
  cases hcandidate

/-- From TRACKING with both runs at 0 the selections lead to SELF or to TRACKING, after the reference then
held (R6). -/
theorem recompute_tracking {s : State} (htracking : s.clock.discipline = .tracking)
    (hruns : s.clock.goodRun = 0 ∧ s.clock.badRun = 0) (hother : s.roster.reference ≠ some s.control.id) :
    s.recompute.clock.discipline =
      (if s.recompute.roster.reference = some s.control.id then .selfRef else .tracking) ∧
    s.recompute.clock.goodRun = 0 ∧ s.recompute.clock.badRun = 0 := by
  rw [recompute_clock, recompute_roster]
  by_cases h : s.chooseReference = s.roster.reference
  · rw [presentReference_same h, h, if_neg hother]
    exact ⟨htracking, hruns⟩
  · rw [presentReference_changed h]
    cases hactive : s.active
    · rw [if_neg (by decide), if_neg (chooseReference_of_inactive hactive)]
      exact ⟨htracking, hruns⟩
    · rw [if_pos rfl]
      unfold State.followReference
      simp only [State.tellReference, raise_clock, raise_control, withRoster_clock, withRoster_control,
        htracking]
      refine ⟨?_, rfl, rfl⟩
      by_cases hself : s.chooseReference = some s.control.id
      · simp [hself, Clock.enter]
      · simp [hself, Clock.enter]

theorem recompute_runs {s : State} (hruns : s.clock.goodRun = 0 ∧ s.clock.badRun = 0) :
    s.recompute.clock.goodRun = 0 ∧ s.recompute.clock.badRun = 0 := by
  rw [recompute_clock]
  by_cases h : s.chooseReference = s.roster.reference
  · rw [presentReference_same h]
    exact hruns
  · rw [presentReference_changed h]
    split
    · unfold State.followReference
      dsimp only
      split
      · exact hruns
      · split
        · exact hruns
        · exact ⟨rfl, rfl⟩
      · exact ⟨rfl, rfl⟩
      · exact ⟨rfl, rfl⟩
      · split
        · exact ⟨rfl, rfl⟩
        · exact hruns
    · exact hruns

/-- Outside RUN and IDLE a changed reference does not touch the clock (R6, R68). -/
theorem recompute_clock_of_inactive {s : State} (hinactive : s.active = false) :
    s.recompute.clock = s.clock := by
  rw [recompute_clock]
  by_cases h : s.chooseReference = s.roster.reference
  · rw [presentReference_same h]
  · rw [presentReference_changed h, hinactive, if_neg (by decide)]
    rfl

theorem endFree_on {s : State} {m : Option Mode} (h : ¬ (m = some .listen ∧ s.active = true)) :
    s.endFree m = s :=
  if_neg h

theorem endFree_over {s : State} (hactive : s.active = true) :
    s.endFree (some .listen) = s.leaveFree :=
  if_pos ⟨rfl, hactive⟩

theorem endFree_roster (s : State) (m : Option Mode) : (s.endFree m).roster = s.roster :=
  (endFree_onlyClock s m).roster

theorem endFree_runs {s : State} (m : Option Mode) (hruns : s.clock.goodRun = 0 ∧ s.clock.badRun = 0) :
    (s.endFree m).clock.goodRun = 0 ∧ (s.endFree m).clock.badRun = 0 := by
  unfold State.endFree
  split
  · exact ⟨rfl, rfl⟩
  · exact hruns

/-- Where the clock leaves FREE, it goes to the state that the reference calls for (R7). -/
theorem endFree_discipline {s : State} (m : Option Mode)
    (h : s.clock.discipline = if s.roster.reference = some s.control.id then .selfRef else .tracking) :
    (s.endFree m).clock.discipline =
      if s.roster.reference = some s.control.id then .selfRef else .tracking := by
  unfold State.endFree
  split
  · rfl
  · exact h

theorem controlled_id (s : State) (b : Bool) (p : Presented) (n : Nat) :
    (s.controlled b p n).control.id = s.control.id := by
  obtain ⟨_, _, _, _, hsettled⟩ := s.control.settled_frame
  rw [State.controlled, changeMode_id, adopted_control, hsettled]

theorem controlled_reference (s : State) (b : Bool) (p : Presented) (n : Nat) :
    (s.controlled b p n).roster.reference = s.roster.reference := by
  obtain ⟨_, _, _, _, _, _, _, _, _, h⟩ := controlled_frame s b p n
  rw [h]

theorem recompute_id (s : State) : s.recompute.control.id = s.control.id := by
  obtain ⟨_, _, _, _, _, _, h⟩ := recompute_frame s
  rw [h]

/-- The clock after a realignment: TRACKING, or SELF when this boundary makes this station the reference;
both runs are 0. -/
theorem realigned_clock {s : State} (b : Bool) (q : StepPlan) (n : Nat)
    (hdiscipline : s.clock.discipline = .realign) :
    (s.roster.reference ≠ some s.control.id →
      (s.boundary b (s.stepTo q) n).clock.discipline =
        if (s.boundary b (s.stepTo q) n).roster.reference = some s.control.id then .selfRef
        else .tracking) ∧
    (s.boundary b (s.stepTo q) n).clock.goodRun = 0 ∧ (s.boundary b (s.stepTo q) n).clock.badRun = 0 := by
  have hstep : (s.controlled b (s.stepTo q) n).clock =
      { (s.clock.turn q.index n).enter .tracking with plan := none } := by
    rw [controlled_clock, stepTo_clockBoundary, takeStep_realign]
    · rfl
    · change s.clock.discipline ≠ _
      rw [hdiscipline]
      decide
  have hruns : (s.controlled b (s.stepTo q) n).clock.goodRun = 0 ∧
      (s.controlled b (s.stepTo q) n).clock.badRun = 0 := by
    rw [hstep]
    exact ⟨rfl, rfl⟩
  rw [boundary_clock, boundary_roster, State.selected, endFree_roster]
  refine ⟨fun hother => ?_, endFree_runs _ (recompute_runs hruns)⟩
  have htracked := recompute_tracking (s := s.controlled b (s.stepTo q) n) (by rw [hstep]; rfl) hruns
    (by rw [controlled_reference, controlled_id]; exact hother)
  rw [← controlled_id s b (s.stepTo q) n, ← recompute_id]
  exact endFree_discipline _ (by rw [recompute_id]; exact htracked.1)

/-! ### The notices of a boundary -/

/-- After the clock's own actions a boundary raises notices, none of them REALIGNED. -/
theorem boundary_tells (s : State) (b : Bool) (p : Presented) (n : Nat) :
    Tells (({ s with stopN := b } : State).clockBoundary p n) (s.boundary b p n) := by
  have lost : Tells (({ s with stopN := b } : State).clockBoundary p n) (s.reported b p n) :=
    .trans (t := (({ s with stopN := b } : State).clockBoundary p n).ageOrphans.timeOutOrphans.ageEntries)
      (.of_eq rfl) (losePeers_tells _)
  have controlled : Tells (s.reported b p n) (s.controlled b p n) :=
    (seatBoundary_tells _ p (s.splitAt b p.stepped p.ended p.next)).trans (controlBoundary_tells _ b)
  have selected : Tells (s.controlled b p n) (s.selected b p n) :=
    (recompute_tells _).trans (endFree_tells _ _)
  have ended : Tells (s.selected b p n) (s.boundary b p n) := .of_eq (boundary_raised s b p n)
  exact (lost.trans controlled).trans (selected.trans ended)

theorem NoticeQueue.mem_join {b : Bool} {q : NoticeQueue} {m n : Notice}
    (h : n ∈ (q.join b m).entries) : n ∈ q.entries ∨ n = m := by
  unfold NoticeQueue.join at h
  split at h
  · simpa using h
  · exact .inl h

theorem NoticeQueue.mem_foldl_join {b : Bool} {n : Notice} (ms : List Notice) {q : NoticeQueue}
    (h : n ∈ (ms.foldl (NoticeQueue.join b) q).entries) : n ∈ q.entries ∨ n ∈ ms := by
  induction ms generalizing q with
  | nil => exact .inl h
  | cons m ms ih =>
    obtain hq | hms := ih h
    · obtain hq | rfl := NoticeQueue.mem_join hq
      · exact .inl hq
      · exact .inr (List.mem_cons_self ..)
    · exact .inr (List.mem_cons_of_mem _ hms)

/-- What stands in the queue at a command's end stood there or was raised. -/
theorem mem_settleNotices {s : State} {n : Notice} (h : n ∈ s.settleNotices.notices.entries) :
    n ∈ s.notices.entries ∨ ∃ r ∈ s.raised, r.notice = n := by
  obtain hq | hraised := NoticeQueue.mem_foldl_join _ h
  · exact .inl hq
  · exact .inr (List.mem_map.mp ((mergeRaised_perm _ _ _).mem_iff.mp hraised))

/-- No REALIGNED comes into the queue at a command's end that was not there or raised. -/
theorem mem_finish_realigned {s : State} {n : Notice} (h : n ∈ s.finish.notices.entries)
    (hk : n.kind = .realigned) : n ∈ s.notices.entries ∨ ∃ r ∈ s.raised, r.notice = n := by
  obtain hq | ⟨r, hr, rfl⟩ := mem_settleNotices h
  · rw [(grant_frame s).blocks.notices] at hq
    exact .inl hq
  · exact .inr ⟨r, (grant_tells s).realigned hr hk, rfl⟩

end Sys2Proof.Machine
end


section
/-! SUPPORT. The changes of station state at a boundary (R160 to R165), and what follows from them: the
clock's way out of FREE (R7), the capture of the new slice (R21), STATE_CHANGED (R173). -/

namespace Sys2Proof.Machine

/-! ### The changes of station state, mode by mode -/

theorem changeMode_start {s : State} (b : Bool) (hmode : s.control.mode = some .start) :
    s.changeMode b = if s.control.storeSeen then
      (s.withControl { s.control with listen := 0 }).enterMode .listen none else s := by
  simp only [State.changeMode, hmode]

theorem changeMode_listen {s : State} (b : Bool) (hmode : s.control.mode = some .listen) :
    s.changeMode b =
      (s.withControl { s.control with listen := s.control.listen + 1 }).decideListen b := by
  simp only [State.changeMode, hmode]

theorem changeMode_run {s : State} (b : Bool) (hmode : s.control.mode = some .run) :
    s.changeMode b = if s.control.pendingStop.isSome ∨ b = false then
      (s.withControl { s.control with pendingStop := none }).enterMode .idle s.control.pendingStop
      else s := by
  simp only [State.changeMode, hmode]

theorem changeMode_idle_none {s : State} (b : Bool) (hmode : s.control.mode = some .idle)
    (hstart : s.control.pendingStart = none) : s.changeMode b = s := by
  simp only [State.changeMode, hmode, hstart]

theorem changeMode_idle_some {s : State} (b : Bool) {k : StationId} (hmode : s.control.mode = some .idle)
    (hstart : s.control.pendingStart = some k) : s.changeMode b =
      if b then (s.withControl { s.control with pendingStart := none }).enterMode .run (some k)
      else s.withControl { s.control with pendingStart := none } := by
  simp only [State.changeMode, hmode, hstart]

/-! ### The end of LISTEN (R161, R162) -/

/-- The listen count and the charter status call for the end of LISTEN (R161). -/
def Control.listenDone (c : Control) : Prop :=
  (50 ≤ c.listen ∧ c.status = .adopted) ∨ 300 ≤ c.listen

theorem listenOver_iff (s : State) : s.listenOver = true ↔ s.control.listenDone :=
  decide_eq_true_iff

/-- The status with which LISTEN ends. -/
def Control.settledStatus (c : Control) : CharterStatus :=
  if c.status = .unsettled ∧ 300 ≤ c.listen then .defaulted else c.status

theorem settleDefaults_control (s : State) :
    s.settleDefaults.control = { s.control with status := s.control.settledStatus } := by
  unfold State.settleDefaults Control.settledStatus
  by_cases h : 300 ≤ s.control.listen ∧ s.control.status = .unsettled
  · rw [if_pos h, if_pos h.symm]
    rfl
  · rw [if_neg h, if_neg fun h' => h h'.symm]

theorem settleDefaults_raised (s : State) : s.settleDefaults.raised = s.raised ++
    (if s.control.status = .unsettled ∧ 300 ≤ s.control.listen then
      [{ raiser := .control
         notice := { kind := .charterDefaulted, slice := s.clock.index, subject := 255
                     detail := 0 } }]
    else []) := by
  unfold State.settleDefaults
  by_cases h : 300 ≤ s.control.listen ∧ s.control.status = .unsettled
  · rw [if_pos h, if_pos h.symm]
    rfl
  · rw [if_neg h, if_neg fun h' => h h'.symm, List.append_nil]

theorem settledStatus_adopted_iff (c : Control) : c.settledStatus = .adopted ↔ c.status = .adopted := by
  unfold Control.settledStatus
  split
  · next h => rw [h.1]; decide
  · rfl

theorem decideListen_on {s : State} (b : Bool) (h : ¬ s.control.listenDone) : s.decideListen b = s := by
  have hshort : ¬ 300 ≤ s.control.listen := fun hlong => h (.inr hlong)
  have hkept : s.settleDefaults = s := if_neg fun hlong => hshort hlong.1
  unfold State.decideListen
  rw [hkept]
  exact if_neg fun hover => h ((listenOver_iff s).mp hover)

theorem decideListen_over {s : State} (b : Bool) (h : s.control.listenDone) :
    s.decideListen b = s.settleDefaults.leaveListen b := by
  refine if_pos ((listenOver_iff _).mpr ?_)
  rw [Control.listenDone, settleDefaults_control]
  exact h.imp_left fun ⟨hlisten, hstatus⟩ => ⟨hlisten, (settledStatus_adopted_iff _).mpr hstatus⟩

/-- The mode that follows LISTEN. -/
def modeAfter (stopN : Bool) : Mode := if stopN then .run else .idle

/-- The controller's fields as LISTEN ends (R162). -/
theorem decideListen_control {s : State} (b : Bool) (h : s.control.listenDone) :
    (s.decideListen b).control = { s.control with
      mode := some (modeAfter b), join := some s.clock.index
      condition := s.control.followed.getD s.control.condition
      correction := s.control.followed.isSome, followed := none
      status := s.control.settledStatus } := by
  have hcontrol := settleDefaults_control s
  have hclock := settleDefaults_clock s
  rw [decideListen_over b h]
  change { s.settleDefaults.control with
    mode := some (modeAfter b), join := some s.settleDefaults.clock.index
    condition := s.settleDefaults.control.followed.getD s.settleDefaults.control.condition
    correction := s.settleDefaults.control.followed.isSome, followed := none } = _
  rw [hcontrol, hclock]

theorem decideListen_withControl_over {s : State} {c : Control} (b : Bool) (h : c.listenDone) :
    ((s.withControl c).decideListen b).control = { c with
      mode := some (modeAfter b), join := some s.clock.index
      condition := c.followed.getD c.condition, correction := c.followed.isSome, followed := none
      status := c.settledStatus } :=
  decideListen_control (s := s.withControl c) b h

theorem decideListen_withControl_on {s : State} {c : Control} (b : Bool) (h : ¬ c.listenDone) :
    (s.withControl c).decideListen b = s.withControl c :=
  decideListen_on (s := s.withControl c) b h

/-- The notices of the end of LISTEN (R173). -/
theorem decideListen_raised {s : State} (b : Bool) (h : s.control.listenDone) :
    (s.decideListen b).raised = s.settleDefaults.raised ++
      [{ raiser := .control
         notice := { kind := .stateChanged, slice := s.clock.index
                     subject := if b then 2 else 3, detail := 255 } }] := by
  have hclock := settleDefaults_clock s
  rw [decideListen_over b h, State.leaveListen, State.enterMode, raise_raised]
  congr 1
  simp only [withControl_clock, hclock, idOr255]
  cases b <;> rfl

theorem active_iff (s : State) :
    s.active = true ↔ s.control.mode = some .run ∨ s.control.mode = some .idle :=
  decide_eq_true_iff

theorem active_of_modeAfter {s : State} {b : Bool} (h : s.control.mode = some (modeAfter b)) :
    s.active = true := by
  rw [active_iff, h]
  cases b
  · exact .inr rfl
  · exact .inl rfl

theorem inactive_of_start {s : State} (h : s.control.mode = some .start) : s.active = false := by
  simp [State.active, h]

theorem inactive_of_listen {s : State} (h : s.control.mode = some .listen) : s.active = false := by
  simp [State.active, h]

/-! ### The controller after a boundary -/

theorem settled_mode (c : Control) : c.settled.mode = c.mode := by
  obtain ⟨_, _, _, _, h⟩ := c.settled_frame; rw [h]
theorem settled_listen (c : Control) : c.settled.listen = c.listen := by
  obtain ⟨_, _, _, _, h⟩ := c.settled_frame; rw [h]

theorem adopted_mode (s : State) (b : Bool) (p : Presented) (n : Nat) :
    (s.adopted b p n).control.mode = s.control.mode := by
  rw [adopted_control, settled_mode]

theorem boundary_of_controlled (s : State) (b : Bool) (p : Presented) (n : Nat) :
    ∃ x, (s.boundary b p n).control = { (s.controlled b p n).control with correction := x } :=
  selected_control s b p n

theorem boundary_mode (s : State) (b : Bool) (p : Presented) (n : Nat) :
    (s.boundary b p n).control.mode = (s.controlled b p n).control.mode := by
  obtain ⟨_, h⟩ := boundary_of_controlled s b p n
  rw [h]

theorem boundary_listen (s : State) (b : Bool) (p : Presented) (n : Nat) :
    (s.boundary b p n).control.listen = (s.controlled b p n).control.listen := by
  obtain ⟨_, h⟩ := boundary_of_controlled s b p n
  rw [h]

theorem recompute_active (s : State) : s.recompute.active = s.active := by
  obtain ⟨_, _, _, _, _, _, h⟩ := recompute_frame s
  rw [h]
  rfl

/-- The clock after a boundary whose controller has left the station outside RUN and IDLE. -/
theorem boundary_clock_of_inactive {s : State} {b : Bool} {p : Presented} {n : Nat}
    (hinactive : (s.controlled b p n).active = false) :
    (s.boundary b p n).clock = (({ s with stopN := b } : State).clockBoundary p n).clock := by
  rw [boundary_clock, State.selected, endFree_on, recompute_clock_of_inactive hinactive, controlled_clock]
  rw [recompute_active, hinactive]
  exact fun h => nomatch h.2

theorem leaveFree_clock (s : State) : s.leaveFree.clock.aligned = false ∧ s.leaveFree.clock.discipline =
    if s.roster.reference = some s.control.id then .selfRef else .tracking := ⟨rfl, rfl⟩

/-- The clock after a boundary at which LISTEN has ended (R7). -/
theorem boundary_clock_of_over {s : State} {b : Bool} {p : Presented} {n : Nat}
    (hlisten : s.control.mode = some .listen) (hactive : (s.controlled b p n).active = true) :
    (s.boundary b p n).clock.aligned = false ∧ (s.boundary b p n).clock.discipline =
      if (s.boundary b p n).roster.reference = some s.control.id then .selfRef else .tracking := by
  rw [boundary_clock, boundary_roster, State.selected, endFree_roster, hlisten,
    endFree_over ((recompute_active _).trans hactive), ← controlled_id s b p n, ← recompute_id]
  exact leaveFree_clock _

/-- In LISTEN a boundary counts, and LISTEN ends when the count and the status call for it. -/
theorem controlled_listen {s : State} (b : Bool) (p : Presented) (n : Nat)
    (hlisten : s.control.mode = some .listen) : s.controlled b p n =
      ((s.adopted b p n).withControl { (s.adopted b p n).control with
        listen := s.control.listen + 1 }).decideListen b := by
  have hcount : (s.adopted b p n).control.listen = s.control.listen := by
    rw [adopted_control, settled_listen]
  rw [State.controlled, changeMode_listen b ((adopted_mode s b p n).trans hlisten), hcount]

/-- Settles O10: the time, the plan and the rest as at every boundary; then the realignment, and the join
alignment with the station state after it. -/
theorem stepBoundaryTakesPlan : Obligations.StepBoundaryTakesPlan := by
  refine ⟨fun b s q hreset hplan => ?_, fun b s hplan => ?_⟩
  · dsimp only
    obtain ⟨hindex, happlied, htrim, hsample, -, hposition, hlast, hlen, -, hmark⟩ :=
      boundary_time s b (s.stepTo q) q.count
    obtain ⟨hstop, hwait, hhigh, hdram, hpending, htx, hflight, hrx, -, -⟩ :=
      boundary_rest s b (s.stepTo q) q.count
    have hdiscarded : (s.boundary b (s.stepTo q) q.count).clock.plan = none :=
      selected_plan b _ _ (takeStep_plan _ _)
    refine ⟨exec_stepBoundary b hreset hplan, ?_⟩
    simp only [finish_clock, finish_control, finish_roster]
    refine ⟨hindex, happlied, htrim, hsample, hposition, hdiscarded, hlast, hlen, hmark, hstop, hwait,
      hhigh.trans hreset, hdram, hpending, htx, hflight, hrx,
      fun k hk => (boundary_present s b _ _ hk).1, fun hrealign => ?_, fun hfree => ?_⟩
    · obtain ⟨hdiscipline, hgood, hbad⟩ := realigned_clock b q q.count hrealign
      refine ⟨hdiscipline, hgood, hbad, (boundary_tells s b _ _).mem ?_⟩
      rw [stepTo_clockBoundary, takeStep_realign _ (by
        change s.clock.discipline ≠ _
        rw [hrealign]
        decide), raise_raised, jumpDetail_eq]
      exact List.mem_append_right _ (List.mem_singleton.mpr rfl)
    · have hstep : ({ s with stopN := b } : State).clockBoundary (s.stepTo q) q.count =
          ({ s with stopN := b } : State).withClock
            { s.clock.turn q.index q.count with plan := none, aligned := true } := by
        rw [stepTo_clockBoundary, takeStep_free _ (by exact hfree)]
        rfl
      have hnew : ∀ r ∈ (s.boundary b (s.stepTo q) q.count).raised, r.notice.kind = .realigned →
          r ∈ s.raised := fun r hr hk => by
        have := (boundary_tells s b _ _).realigned hr hk
        rwa [hstep] at this
      have hjoined (hinactive : (s.controlled b (s.stepTo q) q.count).active = false) :
          (s.boundary b (s.stepTo q) q.count).clock.discipline = .free ∧
          (s.boundary b (s.stepTo q) q.count).clock.aligned = true := by
        rw [boundary_clock_of_inactive hinactive, hstep]
        exact ⟨hfree, rfl⟩
      refine ⟨hnew, fun n hn hk => ?_, fun hstart => ?_, fun hlisten => ?_⟩
      · obtain hq | ⟨r, hr, rfl⟩ := mem_finish_realigned hn hk
        · exact .inl (by rwa [(boundary_frame s b _ _).notices] at hq)
        · exact .inr ⟨r, hnew r hr hk, rfl⟩
      · refine hjoined ?_
        have hmode := (adopted_mode s b (s.stepTo q) q.count).trans hstart
        rw [State.controlled, changeMode_start b hmode]
        split
        · exact inactive_of_listen rfl
        · exact inactive_of_start hmode
      · have hcontrolled := controlled_listen b (s.stepTo q) q.count hlisten
        by_cases hdone : Control.listenDone { (s.adopted b (s.stepTo q) q.count).control with
            listen := s.control.listen + 1 }
        · have hover : (s.controlled b (s.stepTo q) q.count).control.mode = some (modeAfter b) := by
            rw [hcontrolled, decideListen_withControl_over b hdone]
          refine ⟨fun hmode => ?_, fun _ => boundary_clock_of_over hlisten (active_of_modeAfter hover)⟩
          rw [boundary_mode, hover] at hmode
          cases b <;> cases hmode
        · rw [decideListen_withControl_on b hdone] at hcontrolled
          have hon : (s.controlled b (s.stepTo q) q.count).control.mode = some .listen := by
            rw [hcontrolled, withControl_control]
            dsimp only
            rw [adopted_mode, hlisten]
          obtain ⟨hfree', haligned⟩ := hjoined (inactive_of_listen hon)
          refine ⟨fun _ => ⟨hfree', haligned, ?_⟩, fun hmode => absurd ?_ hmode⟩
          · rw [boundary_listen, hcontrolled, withControl_control]
          · rw [boundary_mode, hon]
  · change Host.Outcome.next _ = _
    rw [State.whenRunning]
    split
    · rw [State.stepBoundary, hplan]
    · rfl

end Sys2Proof.Machine
end


section
/-! SUPPORT. Requests of a CONSOLE peer that become pending, and the boundary that takes them (R164, R165,
R170); the time mark (R16); the requests that are passed over (R171). -/

namespace Sys2Proof.Machine

/-! ### Requests taken -/

theorem targeted_iff (s : State) (target : Byte) :
    s.targeted target = true ↔ target.toNat = s.control.id.val ∨ target.toNat = 255 :=
  decide_eq_true_iff

theorem listening_iff (s : State) :
    s.listening = true ↔ s.active = true ∨ s.control.mode = some .listen := by
  simp [State.listening]

theorem exec_condition (k : StationId) (code : Byte) {s : State} (hreset : s.resetN = true) :
    exec (.condition k code) s = .next (s.takeCondition k code) :=
  congrArg Host.Outcome.next (whenRunning_high hreset _)

theorem exec_timeMark (k : StationId) (e : Slice) (d : Half) (m : Word) {s : State}
    (hreset : s.resetN = true) : exec (.timeMark k e d m) s = .next (s.takeTimeMark k e d m) :=
  congrArg Host.Outcome.next (whenRunning_high hreset _)

theorem exec_stop (k : StationId) (target : Byte) {s : State} (hreset : s.resetN = true) :
    exec (.stop k target) s = .next (s.takeStop k target) :=
  congrArg Host.Outcome.next (whenRunning_high hreset _)

theorem exec_start (k : StationId) (target : Byte) {s : State} (hreset : s.resetN = true) :
    exec (.start k target) s = .next (s.takeStart k target) :=
  congrArg Host.Outcome.next (whenRunning_high hreset _)

theorem takeCondition_some {s : State} {k : StationId} {code : Byte} {c : Condition}
    (hconsole : s.fromConsole k = true) (hactive : s.active = true) (hcode : conditionOf code = some c) :
    s.takeCondition k code = s.setPending c := by
  rw [State.takeCondition, if_pos ⟨hconsole, hactive⟩, hcode]

theorem takeCondition_none {s : State} {k : StationId} {code : Byte} (hcode : conditionOf code = none) :
    s.takeCondition k code = s := by
  rw [State.takeCondition, hcode]
  exact ite_self s

theorem takeMark_valid (c : Clock) (e : Slice) (d : Half) {m : Word} (hm : m.toNat ≤ 86399999) :
    c.takeMark e d m = { c with mark := some { slice := e, day := d, ms := m } } :=
  if_pos (Nat.lt_succ_of_le hm)

theorem takeMark_invalid (c : Clock) (e : Slice) (d : Half) {m : Word} (hm : 86400000 ≤ m.toNat) :
    c.takeMark e d m = c :=
  if_neg (Nat.not_lt.mpr hm)

theorem takeTimeMark_taken {s : State} {k : StationId} (e : Slice) (d : Half) (m : Word)
    (hconsole : s.fromConsole k = true) (hlistening : s.listening = true) :
    s.takeTimeMark k e d m = s.withClock (s.clock.takeMark e d m) :=
  if_pos ⟨hconsole, hlistening⟩

/-! ### The condition at a boundary (R170) -/

/-- Only the mode, the pending STOP and START change at a boundary in RUN and IDLE. -/
theorem changeMode_active {s : State} (b : Bool) (hactive : s.active = true) : ∃ m p q r,
    s.changeMode b = { s with
      control := { s.control with mode := m, pendingStop := p, pendingStart := q }, raised := r } := by
  obtain hrun | hidle := (active_iff s).mp hactive
  · rw [changeMode_run b hrun]
    split <;> exact ⟨_, _, _, _, rfl⟩
  · cases hstart : s.control.pendingStart with
    | none => rw [changeMode_idle_none b hidle hstart]; exact ⟨_, _, _, _, rfl⟩
    | some k =>
      rw [changeMode_idle_some b hidle hstart]
      split <;> exact ⟨_, _, _, _, rfl⟩

theorem adopted_active (s : State) (b : Bool) (p : Presented) (n : Nat) :
    (s.adopted b p n).active = s.active := by
  rw [State.active, adopted_mode]
  rfl

theorem boundary_condition {s : State} (b : Bool) (p : Presented) (n : Nat) (hactive : s.active = true) :
    (s.boundary b p n).control.condition = s.control.pendingCondition.getD s.control.condition ∧
    (s.boundary b p n).control.pendingCondition = none := by
  obtain ⟨_, hboundary⟩ := boundary_of_controlled s b p n
  obtain ⟨_, _, _, _, hmode⟩ := changeMode_active b ((adopted_active s b p n).trans hactive)
  obtain ⟨_, _, _, _, hsettled⟩ := s.control.settled_frame
  rw [hboundary, State.controlled, hmode]
  dsimp only
  rw [adopted_control, hsettled]
  exact ⟨rfl, rfl⟩

/-- Settles O25: each request as its code or its milliseconds say, and the pending condition at the
boundary. -/
theorem conditionAndTimeMark : Obligations.ConditionAndTimeMark := by
  refine ⟨fun k s hreset hother hkind => ?_, fun b s hreset hplan hactive =>
    ⟨_, exec_sliceBoundary b s hreset hplan, ?_⟩⟩
  · have hconsole := fromConsole_of_kind hother hkind
    refine ⟨fun hactive code => ⟨fun c hcode => ?_, fun hcode => ?_⟩, fun hlisten e d m =>
      ⟨fun hm => ?_, fun hm => ?_⟩⟩
    · rw [exec_condition k code hreset, takeCondition_some hconsole hactive hcode]
      rfl
    · rw [exec_condition k code hreset, takeCondition_none hcode]
    · rw [exec_timeMark k e d m hreset,
        takeTimeMark_taken e d m hconsole ((listening_iff s).mpr hlisten), takeMark_valid _ _ _ hm]
      rfl
    · rw [exec_timeMark k e d m hreset,
        takeTimeMark_taken e d m hconsole ((listening_iff s).mpr hlisten), takeMark_invalid _ _ _ hm]
      rfl
  · rw [finish_control]
    exact boundary_condition b _ _ hactive

/-! ### STOP and START (R164, R165) -/

theorem takeStop_of_run {s : State} {k : StationId} {target : Byte} (hconsole : s.fromConsole k = true)
    (htarget : s.targeted target = true) (hrun : s.control.mode = some .run)
    (hnone : s.control.pendingStop = none) :
    s.takeStop k target = s.withControl { s.control with pendingStop := some k } :=
  if_pos ⟨hconsole, hrun, htarget, hnone⟩

theorem takeStop_of_pending {s : State} (k : StationId) (target : Byte)
    (hpending : s.control.pendingStop ≠ none) : s.takeStop k target = s :=
  if_neg fun ⟨_, _, _, hnone⟩ => hpending hnone

theorem takeStop_of_other {s : State} (k : StationId) (target : Byte)
    (hmode : s.control.mode ≠ some .run) : s.takeStop k target = s :=
  if_neg fun ⟨_, hrun, _⟩ => hmode hrun

theorem takeStart_of_idle {s : State} {k : StationId} {target : Byte} (hconsole : s.fromConsole k = true)
    (htarget : s.targeted target = true) (hidle : s.control.mode = some .idle) :
    s.takeStart k target = s.withControl { s.control with pendingStart := some k } :=
  if_pos ⟨hconsole, hidle, htarget⟩

theorem takeStart_of_other {s : State} (k : StationId) (target : Byte)
    (hmode : s.control.mode ≠ some .idle) : s.takeStart k target = s :=
  if_neg fun ⟨_, hidle, _⟩ => hmode hidle

/-- STATE_CHANGED as a boundary raises it, at the slice that begins. -/
def stateChanged (slice : Slice) (m : Mode) (requester : Option StationId) : Raised :=
  { raiser := .control
    notice := { kind := .stateChanged, slice := slice, subject := byte (stateCode m)
                detail := BitVec.ofNat 16 (idOr255 requester) } }

theorem enterMode_raised (s : State) (m : Mode) (k : Option StationId) :
    stateChanged s.clock.index m k ∈ (s.enterMode m k).raised :=
  List.mem_append_right _ (List.mem_singleton.mpr rfl)

theorem controlled_tells (s : State) (b : Bool) (p : Presented) (n : Nat) :
    Tells (s.controlled b p n) (s.boundary b p n) := by
  rw [boundary_eq, State.selected]
  exact ((recompute_tells _).trans (endFree_tells _ _)).trans (.of_eq rfl)

/-- The controller's fields after a boundary at which the station changes its mode. -/
theorem boundary_entered {s : State} {b : Bool} {p : Presented} {n : Nat} {c : Control} {m : Mode}
    {k : Option StationId} (h : s.controlled b p n = ((s.adopted b p n).withControl c).enterMode m k) :
    (∃ x, (s.boundary b p n).control = { c with mode := some m, correction := x }) ∧
    stateChanged p.next m k ∈ (s.boundary b p n).raised := by
  obtain ⟨x, hx⟩ := boundary_of_controlled s b p n
  refine ⟨⟨x, ?_⟩, (controlled_tells s b p n).mem ?_⟩
  · rw [hx, h]
    rfl
  · have hraised := enterMode_raised ((s.adopted b p n).withControl c) m k
    rwa [withControl_clock, adopted_index, ← h] at hraised

theorem settled_pendingStop (c : Control) : c.settled.pendingStop = c.pendingStop := by
  obtain ⟨_, _, _, _, h⟩ := c.settled_frame; rw [h]
theorem settled_pendingStart (c : Control) : c.settled.pendingStart = c.pendingStart := by
  obtain ⟨_, _, _, _, h⟩ := c.settled_frame; rw [h]

/-- RUN goes to IDLE (R164). -/
theorem boundary_run_stopped {s : State} {b : Bool} (p : Presented) (n : Nat)
    (hrun : s.control.mode = some .run) (hstop : s.control.pendingStop ≠ none ∨ b = false) :
    (s.boundary b p n).control.mode = some .idle ∧ (s.boundary b p n).control.pendingStop = none ∧
    stateChanged p.next .idle s.control.pendingStop ∈ (s.boundary b p n).raised := by
  have hpending : (s.adopted b p n).control.pendingStop = s.control.pendingStop := by
    rw [adopted_control, settled_pendingStop]
  have hcontrolled := changeMode_run b ((adopted_mode s b p n).trans hrun)
  rw [hpending, if_pos (hstop.imp_left Option.isSome_iff_ne_none.mpr)] at hcontrolled
  obtain ⟨⟨x, hx⟩, hraised⟩ := boundary_entered hcontrolled
  rw [hx]
  exact ⟨rfl, rfl, hraised⟩

/-- RUN stays (R164). -/
theorem boundary_run_on {s : State} (p : Presented) (n : Nat) (hrun : s.control.mode = some .run)
    (hnone : s.control.pendingStop = none) : (s.boundary true p n).control.mode = some .run := by
  have hpending : (s.adopted true p n).control.pendingStop = s.control.pendingStop := by
    rw [adopted_control, settled_pendingStop]
  rw [boundary_mode, State.controlled, changeMode_run true ((adopted_mode s true p n).trans hrun),
    hpending, hnone, if_neg (by decide), adopted_mode, hrun]

/-- IDLE with a pending START (R165). -/
theorem boundary_idle_started {s : State} (b : Bool) (p : Presented) (n : Nat) {k : StationId}
    (hidle : s.control.mode = some .idle) (hstart : s.control.pendingStart = some k) :
    (s.boundary b p n).control.mode = some (modeAfter b) ∧
    (b = true → stateChanged p.next .run (some k) ∈ (s.boundary b p n).raised) ∧
    (s.boundary b p n).control.pendingStart = none := by
  have hpending : (s.adopted b p n).control.pendingStart = some k := by
    rw [adopted_control, settled_pendingStart, hstart]
  have hcontrolled := changeMode_idle_some b ((adopted_mode s b p n).trans hidle) hpending
  cases b with
  | true =>
    rw [if_pos rfl] at hcontrolled
    obtain ⟨⟨x, hx⟩, hraised⟩ := boundary_entered hcontrolled
    rw [hx]
    exact ⟨rfl, fun _ => hraised, rfl⟩
  | false =>
    rw [if_neg (by decide)] at hcontrolled
    obtain ⟨x, hx⟩ := boundary_of_controlled s false p n
    rw [hx, State.controlled, hcontrolled, withControl_control]
    dsimp only
    rw [adopted_mode, hidle]
    exact ⟨rfl, nofun, rfl⟩

/-- IDLE with no pending START stays (R165). -/
theorem boundary_idle_on {s : State} (b : Bool) (p : Presented) (n : Nat)
    (hidle : s.control.mode = some .idle) (hnone : s.control.pendingStart = none) :
    (s.boundary b p n).control.mode = some .idle := by
  have hpending : (s.adopted b p n).control.pendingStart = none := by
    rw [adopted_control, settled_pendingStart, hnone]
  rw [boundary_mode, State.controlled,
    changeMode_idle_none b ((adopted_mode s b p n).trans hidle) hpending, adopted_mode, hidle]

/-- Settles O27: the two requests in either mode, then the boundary in either mode. -/
theorem stopAndStartBecomePending : Obligations.StopAndStartBecomePending := by
  refine ⟨fun k target s hreset hother hkind htarget => ?_, fun b s hreset hplan => ?_⟩
  · have hconsole := fromConsole_of_kind hother hkind
    have hours := (targeted_iff s target).mpr htarget
    rw [exec_stop k target hreset, exec_start k target hreset]
    refine ⟨fun hrun hnone => ?_, fun _ hpending => ?_, fun hidle => ?_, fun hidle => ?_, fun hrun => ?_⟩
    · rw [takeStop_of_run hconsole hours hrun hnone]; rfl
    · rw [takeStop_of_pending k target hpending]
    · rw [takeStop_of_other k target (by rw [hidle]; decide)]
    · rw [takeStart_of_idle hconsole hours hidle]; rfl
    · rw [takeStart_of_other k target (by rw [hrun]; decide)]
  · refine ⟨_, exec_sliceBoundary b s hreset hplan, rfl, fun hrun => ⟨fun hstop => ?_, fun hnone hb => ?_⟩,
      fun hidle => ⟨fun k hstart => ?_, fun hnone => ?_⟩⟩
    · obtain ⟨hmode, hcleared, hraised⟩ := boundary_run_stopped s.ordinary _ hrun hstop
      rw [finish_control, finish_seat, boundary_capturing, hmode]
      refine ⟨rfl, hcleared, fun k hk => ?_, fun hnone => ?_, by decide⟩
      · rw [hk] at hraised; exact hraised
      · rw [hnone] at hraised; exact hraised
    · subst hb
      rw [finish_control, finish_seat, boundary_capturing, boundary_run_on s.ordinary _ hrun hnone]
      exact ⟨rfl, by decide⟩
    · obtain ⟨hmode, hraised, hcleared⟩ := boundary_idle_started b s.ordinary
        (sliceLength s.clock.applied) hidle hstart
      rw [finish_control, finish_seat, boundary_capturing, hmode]
      refine ⟨rfl, hraised, hcleared, ?_⟩
      cases b <;> decide
    · rw [finish_control, finish_seat, boundary_capturing, boundary_idle_on b s.ordinary _ hidle hnone]
      exact ⟨rfl, by decide⟩

end Sys2Proof.Machine
end


section
/-! SUPPORT. Requests that are passed over (R171), the archive marks (R107), the orphans' counts and closes
(R96). -/

namespace Sys2Proof.Machine

/-! ### Requests passed over (R171) -/

/-- A command whose effect is nothing, whatever RESET_N. -/
theorem next_whenRunning_self {s : State} {f : State → State} (h : f s = s) :
    Host.Outcome.next (φ := Fault) (ρ := Refusal) (s.whenRunning f) = .next s := by
  unfold State.whenRunning
  rw [h, ite_self]

theorem finish_of_waiting {s : State} (hraised : s.raised = [])
    (hwaits : s.store.op ≠ none ∨ s.stWait = true) : s.finish = s := by
  have hgrant : s.grant = s := hwaits.elim (grant_busy s) (grant_held s)
  rw [State.finish, hgrant, settleNotices_none s hraised]

theorem fromConsole_of_ne {s : State} {k : StationId} (hkind : (s.entry k).kind ≠ some .console) :
    s.fromConsole k = false := by
  simp [State.fromConsole, hkind]

theorem targeted_of_ne {s : State} {target : Byte} (hid : target.toNat ≠ s.control.id.val)
    (hall : target.toNat ≠ 255) : s.targeted target = false := by
  simp [State.targeted, hid, hall]

theorem listening_of_start {s : State} (hmode : s.control.mode = some .start) : s.listening = false := by
  simp [State.listening, State.active, hmode]

section PassedOver

variable {s : State} (hraised : s.raised = []) (k : StationId)

include hraised

theorem charter_passed (body : List Byte) (h : s.takeCharter k body = s) :
    exec (.charter k body) s = .next s :=
  next_whenRunning_self (by rw [h, settleNotices_none s hraised])

theorem probe_passed (target : Byte) (v : Half) (h : s.takeProbe k target v = s) :
    exec (.probe k target v) s = .next s :=
  next_whenRunning_self (by rw [h, settleNotices_none s hraised])

end PassedOver

theorem takeCharter_of_unheard {s : State} {k : StationId} (body : List Byte)
    (h : s.fromConsole k = false ∨ s.listening = false) : s.takeCharter k body = s :=
  if_neg fun ⟨hconsole, hlistening, _⟩ => by
    obtain h | h := h
    · exact nomatch h.symm.trans hconsole
    · exact nomatch h.symm.trans hlistening

theorem takeCondition_of_unheard {s : State} {k : StationId} (code : Byte)
    (h : s.fromConsole k = false ∨ s.active = false) : s.takeCondition k code = s :=
  if_neg fun ⟨hconsole, hactive⟩ => by
    obtain h | h := h
    · exact nomatch h.symm.trans hconsole
    · exact nomatch h.symm.trans hactive

theorem takeTimeMark_of_unheard {s : State} {k : StationId} (e : Slice) (d : Half) (m : Word)
    (h : s.fromConsole k = false ∨ s.listening = false) : s.takeTimeMark k e d m = s :=
  if_neg fun ⟨hconsole, hlistening⟩ => by
    obtain h | h := h
    · exact nomatch h.symm.trans hconsole
    · exact nomatch h.symm.trans hlistening

theorem takeProbe_of_unheard {s : State} {k : StationId} {target : Byte} (v : Half)
    (h : s.fromConsole k = false ∨ s.active = false ∨ s.targeted target = false) :
    s.takeProbe k target v = s :=
  if_neg fun ⟨hconsole, hactive, htarget⟩ => by
    obtain h | h | h := h
    · exact nomatch h.symm.trans hconsole
    · exact nomatch h.symm.trans hactive
    · exact nomatch h.symm.trans htarget

theorem takeStop_of_unheard {s : State} {k : StationId} {target : Byte}
    (h : s.fromConsole k = false ∨ s.active = false ∨ s.targeted target = false) :
    s.takeStop k target = s :=
  if_neg fun ⟨hconsole, hrun, htarget, _⟩ => by
    obtain h | h | h := h
    · exact nomatch h.symm.trans hconsole
    · exact nomatch h.symm.trans ((active_iff s).mpr (.inl hrun))
    · exact nomatch h.symm.trans htarget

theorem takeStart_of_unheard {s : State} {k : StationId} {target : Byte}
    (h : s.fromConsole k = false ∨ s.active = false ∨ s.targeted target = false) :
    s.takeStart k target = s :=
  if_neg fun ⟨hconsole, hidle, htarget⟩ => by
    obtain h | h | h := h
    · exact nomatch h.symm.trans hconsole
    · exact nomatch h.symm.trans ((active_iff s).mpr (.inr hidle))
    · exact nomatch h.symm.trans htarget

theorem takeArchiveMark_of_unheard {s : State} {k : StationId} (pairs : List (Byte × Slice))
    (h : s.listening = false ∨ s.control.charter.archive ≠ some k) : s.takeArchiveMark k pairs = s :=
  if_neg fun ⟨_, hlistening, harchive, _⟩ => by
    obtain h | h := h
    · exact nomatch h.symm.trans hlistening
    · exact h harchive

theorem takeRecallRequest_of_inactive {s : State} (hinactive : s.active = false) (k : StationId)
    (tag : Half) (holder source mask : Byte) (first last : Slice) :
    s.takeRecallRequest k tag holder source mask first last = s :=
  if_neg fun ⟨_, hactive⟩ => nomatch hinactive.symm.trans hactive

/-- Settles O28: each request's own premises fail, and RECALL's end is the command's. -/
theorem requestsPassedOver : Obligations.RequestsPassedOver := by
  refine ⟨fun s hraised => ⟨fun k hkind body code e d m target v => ?_,
    fun k target v hid hall => ?_, fun hmode k body e d m pairs => ?_,
    fun hinactive k code target v => ?_, fun k pairs harchive => ?_,
    fun hinactive hwaits k tag holder source mask first last => ?_⟩,
    fun s hreset hinactive k tag holder source mask first last => ?_⟩
  · have hnot := fromConsole_of_ne hkind
    exact ⟨charter_passed hraised k body (takeCharter_of_unheard body (.inl hnot)),
      next_whenRunning_self (takeCondition_of_unheard code (.inl hnot)),
      next_whenRunning_self (takeTimeMark_of_unheard e d m (.inl hnot)),
      probe_passed hraised k target v (takeProbe_of_unheard v (.inl hnot)),
      next_whenRunning_self (takeStop_of_unheard (.inl hnot)),
      next_whenRunning_self (takeStart_of_unheard (.inl hnot))⟩
  · have hnot := targeted_of_ne hid hall
    exact ⟨probe_passed hraised k target v (takeProbe_of_unheard v (.inr (.inr hnot))),
      next_whenRunning_self (takeStop_of_unheard (.inr (.inr hnot))),
      next_whenRunning_self (takeStart_of_unheard (.inr (.inr hnot)))⟩
  · have hnot := listening_of_start hmode
    exact ⟨charter_passed hraised k body (takeCharter_of_unheard body (.inr hnot)),
      next_whenRunning_self (takeTimeMark_of_unheard e d m (.inr hnot)),
      next_whenRunning_self (takeArchiveMark_of_unheard pairs (.inl hnot))⟩
  · exact ⟨next_whenRunning_self (takeCondition_of_unheard code (.inr hinactive)),
      probe_passed hraised k target v (takeProbe_of_unheard v (.inr (.inl hinactive))),
      next_whenRunning_self (takeStop_of_unheard (.inr (.inl hinactive))),
      next_whenRunning_self (takeStart_of_unheard (.inr (.inl hinactive)))⟩
  · exact next_whenRunning_self (takeArchiveMark_of_unheard pairs (.inr harchive))
  · change Host.Outcome.next _ = _
    cases hreset : s.resetN with
    | false => rw [whenRunning_low hreset]
    | true =>
      obtain hop | hwait | hlow := hwaits
      · rw [whenRunning_high hreset, takeRecallRequest_of_inactive hinactive,
          finish_of_waiting hraised (.inl hop)]
      · rw [whenRunning_high hreset, takeRecallRequest_of_inactive hinactive,
          finish_of_waiting hraised (.inr hwait)]
      · exact nomatch hreset.symm.trans hlow
  · change Host.Outcome.next _ = _
    rw [whenRunning_high hreset, takeRecallRequest_of_inactive hinactive]

/-! ### Archive marks (R107) -/

theorem exec_archiveMark {k : StationId} {pairs : List (Byte × Slice)} {s : State}
    (hreset : s.resetN = true) (hother : k ≠ s.control.id)
    (hlisten : s.active = true ∨ s.control.mode = some .listen)
    (harchive : s.control.charter.archive = some k) (hlow : 1 ≤ pairs.length)
    (hhigh : pairs.length ≤ 16) :
    exec (.archiveMark k pairs) s = .next (s.withRings (s.rings.takePairs pairs)) := by
  change Host.Outcome.next _ = _
  rw [whenRunning_high hreset, State.takeArchiveMark, if_pos ⟨decide_eq_true hother,
    (listening_iff s).mpr hlisten, harchive, hlow, hhigh⟩]

theorem stationOf_of_val {n : Nat} {k : StationId} (h : n = k.val) : stationOf n = some k := by
  subst h
  exact dif_pos k.isLt

theorem stationOf_of_ge {n : Nat} (h : 16 ≤ n) : stationOf n = none := dif_neg (by omega)

theorem takePair_of_id (r : Rings) {b : Byte} {j : StationId} (t : Slice) (hb : b.toNat = j.val) :
    r.takePair (b, t) = if r.unarchivedSlice j t then
      { r with marks := put r.marks j (some t), armed := put r.armed j true } else r := by
  simp only [Rings.takePair, stationOf_of_val hb]

theorem takePair_of_high (r : Rings) {b : Byte} (t : Slice) (hb : 16 ≤ b.toNat) :
    r.takePair (b, t) = r := by
  simp only [Rings.takePair, stationOf_of_ge hb]

theorem unarchivedSlice_iff (r : Rings) (j : StationId) (t : Slice) :
    r.unarchivedSlice j t = true ↔
      look r.marks j = none ∨ ∃ m, look r.marks j = some m ∧ before m t = true := by
  unfold Rings.unarchivedSlice
  cases look r.marks j <;> simp

/-- Settles O29: one pair by its ID and mark, and the list taken pair by pair. -/
theorem archiveMarkMovesForward : Obligations.ArchiveMarkMovesForward := by
  intro k s hreset hother hlisten harchive
  have taken (u : State) (hu : u.resetN = true ∧ u.control = s.control) (pairs : List (Byte × Slice))
      (hlow : 1 ≤ pairs.length) (hhigh : pairs.length ≤ 16) :
      exec (.archiveMark k pairs) u = .next (u.withRings (u.rings.takePairs pairs)) := by
    obtain ⟨hreset', hcontrol⟩ := hu
    refine exec_archiveMark hreset' (hcontrol ▸ hother) ?_ (hcontrol ▸ harchive) hlow hhigh
    rw [State.active, hcontrol]
    exact hlisten
  refine ⟨fun b t => ?_, fun p q rest hlen => ⟨_, taken s ⟨hreset, rfl⟩ [p] (by simp) (by simp), ?_⟩⟩
  · rw [taken s ⟨hreset, rfl⟩ [(b, t)] (by simp) (by simp)]
    change (∀ j : StationId, _ → _ → Host.Outcome.next (s.withRings (s.rings.takePair (b, t))) = _) ∧
      (∀ (j : StationId) (m : Slice), _ → _ → _ →
        Host.Outcome.next (s.withRings (s.rings.takePair (b, t))) = _) ∧
      (_ → Host.Outcome.next (s.withRings (s.rings.takePair (b, t))) = _)
    refine ⟨fun j hj hmark => ?_, fun j m hj hmark hnot => ?_, fun hb => ?_⟩
    · rw [takePair_of_id _ t hj, if_pos ((unarchivedSlice_iff _ _ _).mpr hmark)]
      rfl
    · rw [takePair_of_id _ t hj, if_neg]
      · rfl
      · rw [Rings.unarchivedSlice, hmark]
        simp [hnot]
    · rw [takePair_of_high _ t hb]
      rfl
  · rw [taken s ⟨hreset, rfl⟩ _ (by simp) (by simp; omega),
      taken (s.withRings (s.rings.takePairs [p])) ⟨hreset, rfl⟩ _ (by simp) (by simp; omega)]
    rfl

/-! ### Orphans (R96) -/

theorem endNoEarlier_eq (a b : Slice) : endNoEarlier a b = if before b a then a else b := rfl

theorem timeOut_orphaned (limit : Nat) (self : StationId) {e : SpanEntry} {n : Nat} {u : Slice}
    (h : e.status = .orphaned n u) : timeOut limit self e =
      if limit ≤ n then { e with
        status := .closed (if before u e.key.openSlice then e.key.openSlice else u) .stationLost
        announcedBy := self } else e := by
  simp only [timeOut, h]
  rfl

theorem timeOut_of_other (limit : Nat) (self : StationId) {e : SpanEntry}
    (h : ∀ n u, e.status ≠ .orphaned n u) : timeOut limit self e = e := by
  unfold timeOut
  split
  · next hs => exact absurd hs (h _ _)
  · rfl
  · rfl

theorem ageOrphan_orphaned {e : SpanEntry} {n : Nat} {u : Slice} (h : e.status = .orphaned n u) :
    ageOrphan e = { e with status := .orphaned (n + 1) u } := by
  simp only [ageOrphan, h]

theorem ageOrphan_of_other {e : SpanEntry} (h : ∀ n u, e.status ≠ .orphaned n u) : ageOrphan e = e := by
  unfold ageOrphan
  split
  · next hs => exact absurd hs (h _ _)
  · rfl
  · rfl

/-- With no peer lost the losses change nothing. -/
theorem losePeers_of_none {s : State} (h : ∀ k, s.isLost k = false) : s.losePeers = s := by
  unfold State.losePeers
  have kept (l : List StationId) : l.foldl (fun s k => if s.isLost k then s.losePeer k else s) s = s := by
    induction l with
    | nil => rfl
    | cons k l ih => rw [List.foldl_cons, h k, if_neg (by decide), ih]
  exact kept _

/-- Seat capture at a boundary that ends a slice not captured, with no charter pending. -/
theorem seatBoundary_of_idle {s : State} (p : Presented) (q : Option Split)
    (hcapturing : s.seat.capturing = false) (hcharter : s.control.pendingCharter = none) :
    s.seatBoundary p q = s.settleUnsent := by
  have hseat : s.settleUnsent.seat.capturing = false := by
    unfold State.settleUnsent
    split <;> exact hcapturing
  have hcontrol : s.settleUnsent.newCharter = none := by
    obtain ⟨_, _, _, _, h⟩ := settleUnsent_onlyCapture s
    rw [h, State.newCharter, hcharter]
  have kept (l : List Lane) (u : State) : l.foldl (State.detectOnly none) u = u := by
    induction l with
    | nil => rfl
    | cons a l ih => exact ih
  unfold State.seatBoundary
  dsimp only
  rw [hseat, if_neg (by decide), hcontrol, kept]

theorem settleUnsent_spans (s : State) : s.settleUnsent.spans = s.spans := by
  unfold State.settleUnsent
  split <;> rfl

theorem OnlySelections.spans {s t : State} : OnlySelections s t → t.spans = s.spans := by
  rintro ⟨_, _, _, _, _, _, rfl⟩; rfl
theorem OnlyClock.spans {s t : State} : OnlyClock s t → t.spans = s.spans := by
  rintro ⟨_, _, rfl⟩; rfl
theorem OnlyCharter.spans {s t : State} : OnlyCharter s t → t.spans = s.spans := by
  rintro ⟨_, _, _, _, _, _, rfl⟩; rfl
theorem OnlyControl.spans {s t : State} : OnlyControl s t → t.spans = s.spans := by
  rintro ⟨_, _, rfl⟩; rfl

/-- After seat capture and the detectors nothing of a boundary touches the span blocks. -/
theorem boundary_spans (s : State) (b : Bool) (p : Presented) (n : Nat) :
    (s.boundary b p n).spans = (s.seated b p n).spans := by
  have hended (u : State) : u.beginSlice.linkBoundary.spans = u.spans := rfl
  rw [boundary_eq, hended, State.selected, (endFree_onlyClock _ _).spans, (recompute_frame _).spans,
    State.controlled, (changeMode_onlyControl _ _).spans, State.adopted,
    (changeCondition_onlyControl _).spans, (adoptPending_onlyCharter _).spans]

/-- With every peer heard within the limit the losses of a boundary change nothing (R64). -/
theorem reported_of_heard {s : State} (b : Bool) (p : Presented) (n : Nat)
    (hheard : ∀ k, k ≠ s.control.id → (look s.roster.entries k).state = .present →
      (look s.roster.entries k).silence < s.control.charter.lossSlices) : s.reported b p n =
      (({ s with stopN := b } : State).clockBoundary p n).ageOrphans.timeOutOrphans.ageEntries := by
  obtain ⟨hcontrol, hentries⟩ := aged_roster s b p n
  refine losePeers_of_none fun k => decide_eq_false ?_
  rw [hcontrol, hentries, age_state]
  rintro ⟨hother, hpresent, hlost⟩
  have := hheard k hother hpresent
  rw [RosterEntry.age, if_pos hpresent] at hlost
  dsimp only at hlost
  omega

/-- The span blocks after a boundary with nothing captured, no charter pending and no peer lost. -/
theorem boundary_spans_of_quiet {s : State} (b : Bool) (p : Presented) (n : Nat)
    (hcapturing : s.seat.capturing = false) (hcharter : s.control.pendingCharter = none)
    (hheard : ∀ k, k ≠ s.control.id → (look s.roster.entries k).state = .present →
      (look s.roster.entries k).silence < s.control.charter.lossSlices) :
    (s.boundary b p n).spans = { s.spans with
      table := s.spans.table.map fun e =>
        timeOut s.control.charter.orphanSlices s.control.id (ageOrphan e) } := by
  have hseated (u : State) (q : Option Split) (hu : OnlyClock { s with stopN := b } u) :
      (u.ageOrphans.timeOutOrphans.ageEntries.seatBoundary p q).spans = { s.spans with
        table := s.spans.table.map fun e =>
          timeOut s.control.charter.orphanSlices s.control.id (ageOrphan e) } := by
    obtain ⟨_, _, rfl⟩ := hu
    rw [seatBoundary_of_idle, settleUnsent_spans]
    · simp only [State.ageOrphans, State.timeOutOrphans, State.ageEntries, withSpans_spans,
        withRoster_spans, withSpans_control, List.map_map]
      rfl
    · exact hcapturing
    · exact hcharter
  rw [boundary_spans, State.seated, reported_of_heard b p n hheard]
  exact hseated _ _ (clockBoundary_onlyClock _ p n)

/-- Settles O18: the closes entry by entry, by themselves and at a boundary. -/
theorem orphanTimeoutCloses : Obligations.OrphanTimeoutCloses := by
  refine ⟨fun s hreset => ⟨s.timeOutOrphans, congrArg Host.Outcome.next (whenRunning_high hreset _),
      rfl, by simp [State.timeOutOrphans], fun i e he => ?_⟩,
    fun b s hreset hplan hcapturing hcharter hheard =>
      ⟨_, exec_sliceBoundary b s hreset hplan, ?_⟩⟩
  · have hnew : s.timeOutOrphans.spans.table[i]? =
        some (timeOut s.control.charter.orphanSlices s.control.id e) := by
      simp [State.timeOutOrphans, he]
    rw [hnew]
    cases hstatus : e.status with
    | orphaned n u =>
      rw [timeOut_orphaned _ _ hstatus]
      by_cases hlimit : s.control.charter.orphanSlices ≤ n
      · exact .inl ⟨n, u, rfl, hlimit, by rw [if_pos hlimit]⟩
      · refine .inr ⟨fun m v hm => ?_, by rw [if_neg hlimit]⟩
        cases hm
        omega
    | opened =>
      exact .inr ⟨nofun, by rw [timeOut_of_other _ _ (by rw [hstatus]; exact nofun)]⟩
    | closed _ _ =>
      exact .inr ⟨nofun, by rw [timeOut_of_other _ _ (by rw [hstatus]; exact nofun)]⟩
  · rw [finish_spans, boundary_spans_of_quiet b _ _ hcapturing hcharter hheard]
    refine ⟨by simp, rfl, fun i e he => ?_⟩
    simp only [List.getElem?_map, he, Option.map_some]
    refine ⟨fun n u hstatus hlimit => ?_, fun n u hstatus hlimit => ?_, fun hother => ?_⟩
    · rw [ageOrphan_orphaned hstatus, timeOut_orphaned (n := n + 1) (u := u) _ _ rfl, if_pos hlimit]
    · rw [ageOrphan_orphaned hstatus, timeOut_orphaned (n := n + 1) (u := u) _ _ rfl,
        if_neg (by omega)]
    · rw [ageOrphan_of_other hother, timeOut_of_other _ _ hother]

end Sys2Proof.Machine
end


section
/-! SUPPORT. The end of LISTEN, commanded and at a boundary (R7, R160 to R162), and room for every notice of
a command (R174). -/

namespace Sys2Proof.Machine

/-! ### Room for the notices (R174) -/

theorem NoticeQueue.foldl_join_of_room (b : Bool) (ns : List Notice) {q : NoticeQueue}
    (hroom : q.entries.length + ns.length ≤ 64) :
    (ns.foldl (NoticeQueue.join b) q).entries = q.entries ++ ns := by
  induction ns generalizing q with
  | nil => simp
  | cons n ns ih =>
    rw [List.length_cons] at hroom
    have hjoined := NoticeQueue.join_of_room b n (q := q) (by omega)
    rw [List.foldl_cons, ih, hjoined, List.append_assoc]
    · rfl
    · rw [hjoined, List.length_append, List.length_singleton]
      omega

/-- With room for all of them every notice raised joins. -/
theorem mem_settleNotices_of_room {s : State} (hroom : s.notices.entries.length + s.raised.length ≤ 64)
    {r : Raised} (hr : r ∈ s.raised) : r.notice ∈ s.settleNotices.notices.entries := by
  have hperm := mergeRaised_perm s.raised.length s.freeUses s.raised
  have hlen : (mergeRaised s.raised.length s.freeUses s.raised).1.length = s.raised.length := by
    rw [hperm.length_eq, List.length_map]
  have hentries := NoticeQueue.foldl_join_of_room s.windowInFlight
    (mergeRaised s.raised.length s.freeUses s.raised).1 (q := s.notices) (by omega)
  change _ ∈ (List.foldl _ _ _ : NoticeQueue).entries
  rw [hentries, List.mem_append]
  exact .inr (hperm.mem_iff.mpr (List.mem_map_of_mem hr))

/-! ### What the selections change -/

theorem presentMirror_control (s : State) (n : Option StationId) :
    (s.presentMirror n).control = s.control := by
  by_cases h : n = s.roster.mirror
  · rw [presentMirror_same h]
  · rw [presentMirror_changed h]
    rfl

/-- A reference that is this station disarms the join correction (R163). -/
theorem recompute_control (s : State) : s.recompute.control = { s.control with
    correction := s.control.correction && decide (s.recompute.roster.reference ≠ some s.control.id) } := by
  have hcontrol : ((s.presentReference s.chooseReference).presentMirror s.chooseMirror).control =
      s.control := by rw [presentMirror_control, presentReference_control]
  have hroster : ((s.presentReference s.chooseReference).presentMirror s.chooseMirror).roster.reference =
      s.recompute.roster.reference := by
    rw [recompute_roster, presentMirror_roster, presentReference_roster]
  generalize hu : (s.presentReference s.chooseReference).presentMirror s.chooseMirror = u
    at hcontrol hroster
  have hrecompute : s.recompute = u.disarmIfOwn := by rw [← hu]; rfl
  rw [← hroster, hrecompute, State.disarmIfOwn, hcontrol]
  by_cases hown : u.roster.reference = some s.control.id
  · simp [hown]
  · simp [hown, hcontrol]

/-- Of the rings the selections change the runs' OPEN mark alone (R112). -/
theorem recompute_rings (s : State) : s.recompute.rings = s.rings ∨
    s.recompute.rings = { s.rings with runs := closeRuns s.rings.runs } := by
  have hreference : (s.presentReference s.chooseReference).rings = s.rings := by
    by_cases h : s.chooseReference = s.roster.reference
    · rw [presentReference_same h]
    · rw [presentReference_changed h]
      split
      · obtain ⟨_, _, hframe⟩ := followReference_frame (s.tellReference s.chooseReference)
          s.roster.reference s.chooseReference
        rw [hframe]
        rfl
      · rfl
  have hdisarm (u : State) : u.disarmIfOwn.rings = u.rings := by
    unfold State.disarmIfOwn
    split <;> rfl
  rw [State.recompute, hdisarm]
  by_cases h : s.chooseMirror = (s.presentReference s.chooseReference).roster.mirror
  · rw [presentMirror_same h]
    exact .inl hreference
  · rw [presentMirror_changed h]
    right
    change { (s.presentReference s.chooseReference).rings with
      runs := closeRuns (s.presentReference s.chooseReference).rings.runs } = _
    rw [hreference]

theorem recompute_rest (s : State) : s.recompute = { s with
    clock := s.recompute.clock
    roster := { s.roster with reference := s.recompute.roster.reference, mirror := s.recompute.roster.mirror }
    rings := { s.rings with runs := s.recompute.rings.runs }
    control := s.recompute.control, raised := s.recompute.raised } := by
  have hrings : { s.rings with runs := s.recompute.rings.runs } = s.recompute.rings := by
    obtain h | h := recompute_rings s <;> rw [h]
  rw [hrings]
  obtain ⟨_, _, _, _, _, _, h⟩ := recompute_frame s
  rw [h]

/-- In FREE the selections do not touch the clock (R6). -/
theorem recompute_clock_of_free {s : State} (hfree : s.clock.discipline = .free) :
    s.recompute.clock = s.clock := by
  rw [recompute_clock]
  by_cases h : s.chooseReference = s.roster.reference
  · rw [presentReference_same h]
  · rw [presentReference_changed h]
    split
    · unfold State.followReference
      simp only [State.tellReference, raise_clock, withRoster_clock, hfree]
    · rfl

theorem recompute_raised_length (s : State) : s.recompute.raised.length ≤ s.raised.length + 3 := by
  rw [recompute_raised]
  simp only [List.length_append]
  have hmirror (p : Prop) [Decidable p] (r : Raised) : (if p then [] else [r]).length ≤ 1 := by
    split <;> simp
  have hunlocked (p : Prop) [Decidable p] (r : Raised) : (if p then [r] else []).length ≤ 1 := by
    split <;> simp
  have hreference (p q : Prop) [Decidable p] [Decidable q] (a c : Raised) :
      (if p then [] else [a] ++ if q then [c] else []).length ≤ 2 := by
    have := hunlocked q c
    split
    · simp
    · simp only [List.length_append, List.length_singleton]
      omega
  have h1 := hreference (s.chooseReference = s.roster.reference)
    (s.active = true ∧ s.clock.discipline = .locked)
    { raiser := .roster
      notice := { kind := .referenceChanged, slice := s.clock.index
                  subject := byte (idOr255 s.chooseReference)
                  detail := BitVec.ofNat 16 (idOr255 s.roster.reference) } }
    { raiser := .clock
      notice := { kind := .unlocked, slice := s.clock.index
                  subject := byte (idOr255 s.roster.reference)
                  detail := BitVec.ofInt 16 s.clock.trim } }
  have h2 := hmirror (s.chooseMirror = s.roster.mirror)
    { raiser := .roster
      notice := { kind := .mirrorSourceChanged, slice := s.clock.index
                  subject := byte (idOr255 s.chooseMirror)
                  detail := BitVec.ofNat 16 (idOr255 s.roster.mirror) } }
  omega

/-! ### LISTEN_END -/

theorem exec_listenEnd (b : Bool) {s : State} (hreset : s.resetN = true)
    (hmode : s.control.mode = some .listen) (hdone : s.control.listenDone) :
    exec (.listenEnd b) s = .next (((({ s with stopN := b } : State).decideListen b).recompute.endFree
      (some .listen)).beginSlice.settleNotices) := by
  change Host.Outcome.next _ = _
  rw [whenRunning_high hreset, State.listenEnds, if_pos ⟨hmode, (listenOver_iff s).mpr hdone⟩]

theorem listenEnds_of_none (b : Bool) {s : State}
    (h : s.control.mode ≠ some .listen ∨ ¬ s.control.listenDone) : s.listenEnds b = s := by
  refine if_neg fun ⟨hmode, hover⟩ => ?_
  obtain h | h := h
  · exact h hmode
  · exact h ((listenOver_iff s).mp hover)

theorem settleDefaults_onlyControl (s : State) : OnlyControl s s.settleDefaults := by
  obtain ⟨_, _, h⟩ := settleDefaults_frame s
  exact ⟨_, _, h⟩

/-- The notices of the end of LISTEN are at most five. -/
theorem decideListen_raised_length {s : State} (b : Bool) (h : s.control.listenDone) :
    (s.decideListen b).raised.length ≤ s.raised.length + 2 := by
  rw [decideListen_raised b h, settleDefaults_raised]
  simp only [List.length_append, List.length_singleton]
  split <;> simp

theorem Clock.SameTime.trim {c d : Clock} : c.SameTime d → d.trim = c.trim := by
  rintro ⟨_, _, _, _, _, rfl⟩; rfl

theorem leaveFree_sameTime (s : State) : s.clock.SameTime s.leaveFree.clock := ⟨_, _, _, _, _, rfl⟩
theorem leaveFree_plan (s : State) : s.leaveFree.clock.plan = s.clock.plan := rfl
theorem leaveFree_runs (s : State) : s.leaveFree.clock.goodRun = 0 ∧ s.leaveFree.clock.badRun = 0 :=
  ⟨rfl, rfl⟩

/-- The station controller has ended LISTEN, and the selections have been made. -/
def State.listened (s : State) (b : Bool) : State :=
  (({ s with stopN := b } : State).decideListen b).recompute

/-- The state in which LISTEN_END leaves the machine, before the notices join. -/
def State.listenEnded (s : State) (b : Bool) : State := (s.listened b).leaveFree.beginSlice

theorem ended_control (s : State) : s.leaveFree.beginSlice.control = s.control := rfl
theorem ended_roster (s : State) : s.leaveFree.beginSlice.roster = s.roster := rfl
theorem ended_raised (s : State) : s.leaveFree.beginSlice.raised = s.raised := rfl
theorem ended_clock (s : State) : s.leaveFree.beginSlice.clock = s.leaveFree.clock := rfl
theorem ended_seat (s : State) : s.leaveFree.beginSlice.seat = { s.seat with
    capturing := decide (s.control.mode = some .run)
    accs := Vector.replicate 8 Accumulator.cleared } := rfl
theorem ended_rest (s : State) : s.leaveFree.beginSlice = { s with
    clock := s.leaveFree.beginSlice.clock, seat := s.leaveFree.beginSlice.seat } := rfl

section ListenEnd

variable {s : State} (b : Bool) (hdone : s.control.listenDone)

include hdone

theorem listened_control : (s.listened b).control = { s.control with
    mode := some (modeAfter b), join := some s.clock.index
    condition := s.control.followed.getD s.control.condition, followed := none
    status := s.control.settledStatus
    correction := s.control.followed.isSome &&
      decide ((s.listened b).roster.reference ≠ some s.control.id) } := by
  have hcontrol := decideListen_control (s := { s with stopN := b }) b hdone
  rw [State.listened, recompute_control, hcontrol]

theorem listened_raised_length : (s.listened b).raised.length ≤ s.raised.length + 5 := by
  have h1 := recompute_raised_length (({ s with stopN := b } : State).decideListen b)
  have h2 := decideListen_raised_length (s := { s with stopN := b }) b hdone
  rw [State.listened]
  dsimp only at h2
  omega

theorem listened_raised : { raiser := .control, notice := {
      kind := .stateChanged, slice := s.clock.index, subject := if b then 2 else 3
      detail := 255 } : Raised } ∈ (s.listened b).raised ∧
    (s.control.status = .unsettled → { raiser := .control, notice := {
      kind := .charterDefaulted, slice := s.clock.index, subject := 255
      detail := 0 } : Raised } ∈ (s.listened b).raised) := by
  have htold := recompute_tells (({ s with stopN := b } : State).decideListen b)
  have hraised := decideListen_raised (s := { s with stopN := b }) b hdone
  refine ⟨htold.mem ?_, fun hunsettled => htold.mem ?_⟩
  · rw [hraised]
    exact List.mem_append_right _ (List.mem_singleton.mpr rfl)
  · have hlong : 300 ≤ s.control.listen := hdone.resolve_left fun h => by
      rw [hunsettled] at h
      exact nomatch h.2
    rw [hraised, settleDefaults_raised, if_pos ⟨hunsettled, hlong⟩]
    exact List.mem_append_left _ (List.mem_append_right _ (List.mem_singleton.mpr rfl))

end ListenEnd

theorem listened_rest (s : State) (b : Bool) : s.listened b = { s with
    stopN := b, clock := (s.listened b).clock
    roster := { s.roster with
      reference := (s.listened b).roster.reference, mirror := (s.listened b).roster.mirror }
    rings := { s.rings with runs := (s.listened b).rings.runs }
    control := (s.listened b).control, raised := (s.listened b).raised } := by
  obtain ⟨_, _, hdecided⟩ := decideListen_onlyControl { s with stopN := b } b
  have hrest := recompute_rest (({ s with stopN := b } : State).decideListen b)
  rw [State.listened]
  generalize (({ s with stopN := b } : State).decideListen b) = u at hdecided hrest ⊢
  subst hdecided
  exact hrest

/-- The clock's time through the end of LISTEN. -/
theorem listened_time (s : State) (b : Bool) : s.clock.SameTime (s.listened b).clock := by
  have htime := recompute_sameTime (({ s with stopN := b } : State).decideListen b)
  rwa [decideListen_clock] at htime

theorem listened_plan {s : State} (b : Bool) (hfree : s.clock.discipline = .free) :
    (s.listened b).clock.plan = s.clock.plan := by
  rw [State.listened, recompute_clock_of_free, decideListen_clock]
  rw [decideListen_clock]
  exact hfree

/-- The end of LISTEN by itself. -/
theorem listenEnd_over (b : Bool) {s : State} (hreset : s.resetN = true)
    (hmode : s.control.mode = some .listen) (hdone : s.control.listenDone) :
    exec (.listenEnd b) s = .next (s.listenEnded b).settleNotices := by
  have hactive : (s.listened b).active = true :=
    active_of_modeAfter (b := b) (by rw [listened_control b hdone])
  rw [exec_listenEnd b hreset hmode hdone, State.listenEnded, ← endFree_over hactive, State.listened]

/-! ### Boundaries in START and LISTEN -/

theorem settled_storeSeen (c : Control) : c.settled.storeSeen = c.storeSeen := by
  obtain ⟨_, _, _, _, h⟩ := c.settled_frame; rw [h]
theorem settled_followed (c : Control) : c.settled.followed = c.followed := by
  obtain ⟨_, _, _, _, h⟩ := c.settled_frame; rw [h]
theorem settled_condition (c : Control) :
    c.settled.condition = c.pendingCondition.getD c.condition := by
  obtain ⟨_, _, _, _, h⟩ := c.settled_frame; rw [h]
theorem settled_status {c : Control} (hcharter : c.pendingCharter = none) :
    c.settled.status = c.status := by
  rw [Control.settled_of_none hcharter]

/-- START whose store has been READY enters LISTEN (R160). -/
theorem boundary_start_seen {s : State} (b : Bool) (p : Presented) (n : Nat)
    (hstart : s.control.mode = some .start) (hseen : s.control.storeSeen = true) :
    (s.boundary b p n).control.mode = some .listen ∧ (s.boundary b p n).control.listen = 0 ∧
    stateChanged p.next .listen none ∈ (s.boundary b p n).raised := by
  have hstore : (s.adopted b p n).control.storeSeen = true := by
    rw [adopted_control, settled_storeSeen, hseen]
  have hcontrolled := changeMode_start b ((adopted_mode s b p n).trans hstart)
  rw [hstore, if_pos rfl] at hcontrolled
  obtain ⟨⟨x, hx⟩, hraised⟩ := boundary_entered hcontrolled
  rw [hx]
  exact ⟨rfl, rfl, hraised⟩

/-- START whose store has not been READY stays (R160). -/
theorem boundary_start_on {s : State} (b : Bool) (p : Presented) (n : Nat)
    (hstart : s.control.mode = some .start) (hseen : s.control.storeSeen = false) :
    (s.boundary b p n).control.mode = some .start := by
  have hstore : (s.adopted b p n).control.storeSeen = false := by
    rw [adopted_control, settled_storeSeen, hseen]
  rw [boundary_mode, State.controlled, changeMode_start b ((adopted_mode s b p n).trans hstart), hstore,
    if_neg (by decide), adopted_mode, hstart]

/-- The controller's fields once a boundary in LISTEN has been counted (R161). -/
def Control.counted (c : Control) : Control := { c.settled with listen := c.listen + 1 }

theorem controlled_counted {s : State} (b : Bool) (p : Presented) (n : Nat)
    (hlisten : s.control.mode = some .listen) : s.controlled b p n =
      ((s.adopted b p n).withControl s.control.counted).decideListen b := by
  rw [controlled_listen b p n hlisten, adopted_control]
  rfl

theorem counted_done_iff {c : Control} (hcharter : c.pendingCharter = none) : c.counted.listenDone ↔
    (50 ≤ c.listen + 1 ∧ c.status = .adopted) ∨ 300 ≤ c.listen + 1 := by
  rw [Control.listenDone, Control.counted]
  dsimp only
  rw [settled_status hcharter]

/-- LISTEN ends at a boundary (R161, R162). -/
theorem boundary_listen_over {s : State} (b : Bool) (p : Presented) (n : Nat)
    (hlisten : s.control.mode = some .listen) (hdone : s.control.counted.listenDone) :
    (∃ x, (s.boundary b p n).control = { s.control.counted with
      mode := some (modeAfter b), join := some p.next
      condition := s.control.counted.followed.getD s.control.counted.condition
      correction := x, followed := none, status := s.control.counted.settledStatus }) ∧
    { raiser := .control, notice := {
      kind := .stateChanged, slice := p.next, subject := if b then 2 else 3
      detail := 255 } : Raised } ∈ (s.boundary b p n).raised ∧
    (s.control.counted.status = .unsettled → { raiser := .control, notice := {
      kind := .charterDefaulted, slice := p.next, subject := 255
      detail := 0 } : Raised } ∈ (s.boundary b p n).raised) ∧
    (s.boundary b p n).clock.aligned = false ∧ (s.boundary b p n).clock.discipline =
      (if (s.boundary b p n).roster.reference = some s.control.id then .selfRef else .tracking) := by
  have hcontrolled := controlled_counted b p n hlisten
  have hcontrol := decideListen_withControl_over (s := s.adopted b p n) b hdone
  have hraised := decideListen_raised (s := (s.adopted b p n).withControl s.control.counted) b hdone
  rw [adopted_index, ← hcontrolled] at hcontrol
  rw [settleDefaults_raised, withControl_control, withControl_clock, adopted_index, ← hcontrolled]
    at hraised
  have htold := controlled_tells s b p n
  have hactive : (s.controlled b p n).active = true :=
    active_of_modeAfter (b := b) (by rw [hcontrol])
  obtain ⟨x, hx⟩ := boundary_of_controlled s b p n
  refine ⟨⟨x, by rw [hx, hcontrol]⟩, htold.mem ?_, fun hunsettled => htold.mem ?_,
    boundary_clock_of_over hlisten hactive⟩
  · rw [hraised]
    exact List.mem_append_right _ (List.mem_singleton.mpr rfl)
  · have hlong : 300 ≤ s.control.counted.listen := hdone.resolve_left fun h => by
      rw [hunsettled] at h
      exact nomatch h.2
    rw [hraised, if_pos ⟨hunsettled, hlong⟩]
    exact List.mem_append_left _ (List.mem_append_right _ (List.mem_singleton.mpr rfl))

/-- LISTEN goes on (R161). -/
theorem boundary_listen_on {s : State} (b : Bool) (p : Presented) (n : Nat)
    (hlisten : s.control.mode = some .listen) (hdone : ¬ s.control.counted.listenDone) :
    (∃ x, (s.boundary b p n).control = { s.control.counted with correction := x }) ∧
    (s.boundary b p n).clock = (({ s with stopN := b } : State).clockBoundary p n).clock := by
  have hcontrolled := controlled_counted b p n hlisten
  rw [decideListen_withControl_on b hdone] at hcontrolled
  have hmode : (s.controlled b p n).control.mode = some .listen := by
    rw [hcontrolled, withControl_control, Control.counted]
    dsimp only
    rw [settled_mode, hlisten]
  obtain ⟨x, hx⟩ := boundary_of_controlled s b p n
  refine ⟨⟨x, by rw [hx, hcontrolled, withControl_control]⟩,
    boundary_clock_of_inactive (inactive_of_listen hmode)⟩

/-! ### The parts of the obligation -/

theorem run_modeAfter (b : Bool) : decide (some (modeAfter b) = some Mode.run) = b := by
  cases b <;> rfl

theorem ended_notices (s : State) : s.leaveFree.beginSlice.notices = s.notices := rfl

theorem listened_notices (s : State) (b : Bool) : (s.listened b).notices = s.notices := by
  have hrest := listened_rest s b
  generalize s.listened b = u at hrest ⊢
  rw [hrest]

/-- The notices of the end of LISTEN join a queue with room for them. -/
theorem listenEnded_notices {s : State} (b : Bool) (hdone : s.control.listenDone) (hraised : s.raised = [])
    (hroom : s.notices.entries.length ≤ 59) {r : Raised} (hr : r ∈ (s.listened b).raised) :
    r.notice ∈ (s.listenEnded b).settleNotices.notices.entries := by
  have hlen := listened_raised_length (s := s) b hdone
  rw [hraised, List.length_nil] at hlen
  have hnotices : (s.listenEnded b).notices = s.notices := by
    rw [State.listenEnded, ended_notices, listened_notices]
  have hsame : (s.listenEnded b).raised = (s.listened b).raised := by
    rw [State.listenEnded, ended_raised]
  refine mem_settleNotices_of_room ?_ (by rw [hsame]; exact hr)
  rw [hnotices, hsame]
  omega

theorem settledEnd_rest (u : State) : u.leaveFree.beginSlice.settleNotices = { u with
    clock := u.leaveFree.beginSlice.settleNotices.clock
    seat := { u.seat with
      capturing := u.leaveFree.beginSlice.settleNotices.seat.capturing
      accs := u.leaveFree.beginSlice.settleNotices.seat.accs }
    notices := u.leaveFree.beginSlice.settleNotices.notices
    freeUses := u.leaveFree.beginSlice.settleNotices.freeUses, raised := [] } := by
  obtain ⟨_, _, hframe⟩ := settleNotices_frame u.leaveFree.beginSlice
  rw [hframe]
  rfl

/-- What the end of LISTEN by itself leaves unchanged. -/
theorem listenEnded_rest (s : State) (b : Bool) : (s.listenEnded b).settleNotices = { s with
    stopN := b, clock := (s.listenEnded b).settleNotices.clock
    seat := { s.seat with
      capturing := (s.listenEnded b).settleNotices.seat.capturing
      accs := (s.listenEnded b).settleNotices.seat.accs }
    roster := { s.roster with
      reference := (s.listenEnded b).settleNotices.roster.reference
      mirror := (s.listenEnded b).settleNotices.roster.mirror }
    rings := { s.rings with runs := (s.listenEnded b).settleNotices.rings.runs }
    control := (s.listenEnded b).settleNotices.control
    notices := (s.listenEnded b).settleNotices.notices
    freeUses := (s.listenEnded b).settleNotices.freeUses, raised := [] } := by
  have hrest := listened_rest s b
  have hend := settledEnd_rest (s.listened b)
  rw [State.listenEnded]
  generalize s.listened b = u at hrest hend ⊢
  generalize u.leaveFree.beginSlice.settleNotices = v at hend ⊢
  generalize v.clock = c, v.seat.capturing = a, v.seat.accs = x, v.notices = q, v.freeUses = f at hend
  subst hend
  dsimp only
  generalize u.clock = c', u.roster.reference = r, u.roster.mirror = m, u.rings.runs = runs,
    u.control = k, u.raised = raised at hrest ⊢
  subst hrest
  rfl

theorem listenEnded_control {s : State} (b : Bool) (hdone : s.control.listenDone) :
    (s.listenEnded b).settleNotices.control = { s.control with
      mode := some (modeAfter b), join := some s.clock.index
      condition := s.control.followed.getD s.control.condition, followed := none
      status := s.control.settledStatus
      correction := s.control.followed.isSome &&
        decide ((s.listenEnded b).settleNotices.roster.reference ≠ some s.control.id) } := by
  rw [settleNotices_control, settleNotices_roster, State.listenEnded, ended_control, ended_roster]
  exact listened_control b hdone

theorem listenEnded_seat {s : State} (b : Bool) (hdone : s.control.listenDone) :
    (s.listenEnded b).settleNotices.seat.capturing = b := by
  rw [settleNotices_seat, State.listenEnded, ended_seat]
  dsimp only
  rw [listened_control b hdone]
  exact run_modeAfter b

/-- The clock after the end of LISTEN by itself (R7). -/
theorem listenEnded_clock {s : State} (b : Bool) (hdone : s.control.listenDone) :
    s.clock.SameTime (s.listenEnded b).settleNotices.clock ∧
    (s.listenEnded b).settleNotices.clock.discipline =
      (if (s.listenEnded b).settleNotices.roster.reference = some s.control.id then .selfRef
        else .tracking) ∧
    (s.listenEnded b).settleNotices.clock.aligned = false ∧
    (s.listenEnded b).settleNotices.clock.goodRun = 0 ∧
    (s.listenEnded b).settleNotices.clock.badRun = 0 := by
  obtain ⟨haligned, hdiscipline⟩ := leaveFree_clock (s.listened b)
  obtain ⟨hgood, hbad⟩ := leaveFree_runs (s.listened b)
  have hid : (s.listened b).control.id = s.control.id := by rw [listened_control b hdone]
  rw [hid] at hdiscipline
  rw [settleNotices_clock, settleNotices_roster, State.listenEnded, ended_clock, ended_roster]
  exact ⟨(listened_time s b).trans (leaveFree_sameTime _), hdiscipline, haligned, hgood, hbad⟩

theorem listenEnded_plan {s : State} (b : Bool) (hfree : s.clock.discipline = .free) :
    (s.listenEnded b).settleNotices.clock.plan = s.clock.plan := by
  rw [settleNotices_clock, State.listenEnded, ended_clock, leaveFree_plan, listened_plan b hfree]

theorem settledStatus_of_counted {c : Control} (hdone : c.listenDone) : c.settledStatus =
    if c.status = .unsettled then .defaulted else c.status := by
  rw [Control.settledStatus]
  by_cases hunsettled : c.status = .unsettled
  · have hlong : 300 ≤ c.listen := hdone.resolve_left fun h => by
      rw [hunsettled] at h
      exact nomatch h.2
    rw [if_pos ⟨hunsettled, hlong⟩, if_pos hunsettled]
  · rw [if_neg fun h => hunsettled h.1, if_neg hunsettled]

theorem boundary_listen_count {s : State} (b : Bool) (p : Presented) (n : Nat)
    (hlisten : s.control.mode = some .listen) :
    (s.boundary b p n).control.listen = s.control.listen + 1 := by
  by_cases hdone : s.control.counted.listenDone
  · obtain ⟨⟨x, hx⟩, -⟩ := boundary_listen_over b p n hlisten hdone
    rw [hx]
    rfl
  · obtain ⟨⟨x, hx⟩, -⟩ := boundary_listen_on b p n hlisten hdone
    rw [hx]
    rfl

theorem boundary_seat_capturing_listen {s : State} (b : Bool) (p : Presented) (n : Nat)
    (hlisten : s.control.mode = some .listen) (hdone : s.control.counted.listenDone) :
    (s.boundary b p n).seat.capturing = b := by
  obtain ⟨⟨x, hx⟩, -⟩ := boundary_listen_over b p n hlisten hdone
  rw [boundary_capturing, hx]
  exact run_modeAfter b

theorem not_listenDone {c : Control} (hshort : c.listen < 300)
    (hearly : c.listen < 50 ∨ c.status ≠ .adopted) : ¬ c.listenDone := by
  rintro (⟨hlong, hadopted⟩ | hlong)
  · exact hearly.elim (fun h => by omega) fun h => h hadopted
  · omega

/-- The boundary that ends LISTEN, in the form of the obligation. -/
theorem boundary_listen_ended {s : State} (b : Bool) (p : Presented) (n : Nat)
    (hlisten : s.control.mode = some .listen) (hcharter : s.control.pendingCharter = none)
    (hdone : s.control.counted.listenDone) :
    (s.boundary b p n).control.mode = some (modeAfter b) ∧
    (s.boundary b p n).control.join = some p.next ∧
    (s.boundary b p n).control.condition =
      s.control.followed.getD (s.control.pendingCondition.getD s.control.condition) ∧
    (s.boundary b p n).control.followed = none ∧
    (s.boundary b p n).control.status =
      (if s.control.status = .unsettled then .defaulted else s.control.status) := by
  obtain ⟨⟨x, hx⟩, -⟩ := boundary_listen_over b p n hlisten hdone
  have hstatus : s.control.counted.status = s.control.status := settled_status hcharter
  have hfollowed : s.control.counted.followed = s.control.followed := settled_followed s.control
  have hcondition : s.control.counted.condition =
      s.control.pendingCondition.getD s.control.condition := settled_condition s.control
  rw [hx]
  dsimp only
  rw [settledStatus_of_counted hdone, hstatus, hfollowed, hcondition]
  exact ⟨rfl, rfl, rfl, rfl, rfl⟩

/-- LISTEN goes on at a boundary, in the form of the obligation. -/
theorem boundary_listen_kept {s : State} (b : Bool) (n : Nat)
    (hlisten : s.control.mode = some .listen) (hcharter : s.control.pendingCharter = none)
    (hdone : ¬ s.control.counted.listenDone) :
    (s.boundary b s.ordinary n).control.mode = some .listen ∧
    (s.boundary b s.ordinary n).control.status = s.control.status ∧
    (s.boundary b s.ordinary n).clock.discipline = s.clock.discipline := by
  obtain ⟨⟨x, hx⟩, hclock⟩ := boundary_listen_on b s.ordinary n hlisten hdone
  have hstatus : s.control.counted.status = s.control.status := settled_status hcharter
  have hmode : s.control.counted.mode = some .listen := (settled_mode s.control).trans hlisten
  rw [hx, hclock, ordinary_clock]
  exact ⟨hmode, hstatus, rfl⟩

/-- Settles O22: the command, its idle case, and the boundaries in START and LISTEN. -/
theorem listenEnds : Obligations.ListenEnds := by
  refine ⟨fun b s hreset hmode hdone => ⟨_, listenEnd_over b hreset hmode hdone, ?_⟩,
    fun b s hnot => next_whenRunning_self (listenEnds_of_none b ?_),
    fun b s hreset hplan hcharter => ?_⟩
  · obtain ⟨htime, hdiscipline, haligned, hgood, hbad⟩ := listenEnded_clock b hdone
    have htrim := Clock.SameTime.trim htime
    obtain ⟨hchanged, hdefaulted⟩ := listened_raised b hdone
    exact ⟨listenEnded_control b hdone, hdiscipline, haligned, hgood, hbad, htrim, htime.index,
      listenEnded_plan b, listenEnded_seat b hdone,
      fun hraised hroom => ⟨listenEnded_notices b hdone hraised hroom hchanged,
        fun hunsettled => listenEnded_notices b hdone hraised hroom (hdefaulted hunsettled)⟩,
      listenEnded_rest s b⟩
  · exact hnot.imp_right fun ⟨hshort, hearly⟩ => not_listenDone hshort hearly
  · refine ⟨_, exec_sliceBoundary b s hreset hplan, rfl, fun hstart => ?_, fun hlisten => ?_⟩
    · rw [finish_control]
      exact ⟨fun hseen => boundary_start_seen b s.ordinary _ hstart hseen,
        fun hseen => boundary_start_on b s.ordinary _ hstart hseen⟩
    · rw [finish_control, finish_clock, finish_roster, finish_seat]
      refine ⟨boundary_listen_count b _ _ hlisten, fun hdone => ?_, fun hshort hearly => ?_⟩
      · have hcounted := (counted_done_iff hcharter).mpr hdone
        obtain ⟨-, hchanged, hdefaulted, haligned, hdiscipline⟩ :=
          boundary_listen_over b s.ordinary (sliceLength s.clock.applied) hlisten hcounted
        have hstatus : s.control.counted.status = s.control.status := settled_status hcharter
        obtain ⟨hmode, hjoin, hcondition, hfollowed, hsettled⟩ := boundary_listen_ended b s.ordinary
          (sliceLength s.clock.applied) hlisten hcharter hcounted
        exact ⟨hmode, hchanged, fun h => hdefaulted (hstatus.trans h), hjoin, hcondition, hfollowed,
          hsettled, haligned, hdiscipline, boundary_seat_capturing_listen b _ _ hlisten hcounted⟩
      · refine boundary_listen_kept b _ hlisten hcharter fun hdone => ?_
        obtain ⟨hlong, hadopted⟩ | hlong := (counted_done_iff hcharter).mp hdone
        · exact hearly.elim (fun h => by omega) fun h => h hadopted
        · omega

end Sys2Proof.Machine
end


section
/-! SUPPORT. Reading fields and the charter body (R166, R173, R181). -/

namespace Sys2Proof.Machine

/-! ### Fields as numbers (R181) -/

theorem half16_toNat (bs : List Byte) (i : Nat) :
    (half16 bs i).toNat = (byteAt bs i).toNat + 256 * (byteAt bs (i + 1)).toNat := by
  rw [half16, BitVec.toNat_append, ← Nat.shiftLeft_add_eq_or_of_lt (byteAt bs i).isLt, Nat.shiftLeft_eq]
  omega

theorem byteAt_drop (bs : List Byte) (n i : Nat) : byteAt (bs.drop n) i = byteAt bs (n + i) := by
  simp only [byteAt, List.getD_eq_getElem?_getD, List.getElem?_drop]

theorem byte_eq_255_iff (b : Byte) : b = 0xFF ↔ b.toNat = 255 :=
  ⟨fun h => congrArg BitVec.toNat h, fun h => BitVec.eq_of_toNat_eq h⟩

theorem low_nibble (b : Byte) : (b &&& 0x0F).toNat = b.toNat % 16 := by
  rw [BitVec.toNat_and]
  exact Nat.and_two_pow_sub_one_eq_mod b.toNat 4

theorem top_bit (b : Byte) : b.getLsbD 7 = decide (128 ≤ b.toNat) := by
  have hlt := b.isLt
  rw [BitVec.getLsbD, Nat.testBit_eq_decide_div_mod_eq]
  congr 1
  exact propext ⟨fun h => by omega, fun h => by omega⟩

/-! ### The role codes (Table 11-2) -/

theorem roleCode_of_roleOf {n : Nat} {r : Role} (h : roleOf n = some r) :
    (roleCode r).toNat = n ∧ (r = .unused ↔ n = 8) := by
  unfold roleOf at h
  split at h <;> cases h <;> exact ⟨rfl, by decide⟩

theorem roleOf_isSome {n : Nat} (hlow : 1 ≤ n) (hhigh : n ≤ 8) : ∃ r, roleOf n = some r := by
  interval_cases n <;> exact ⟨_, rfl⟩

theorem roleOf_of_outside {n : Nat} (h : n = 0 ∨ 8 < n) : roleOf n = none := by
  obtain rfl | h := h
  · rfl
  · obtain ⟨k, rfl⟩ := Nat.exists_eq_add_of_le' h
    rfl

/-! ### A seat table entry (R166) -/

/-- The two bytes of a seat table entry are in range for seat `n`. -/
def SeatOk (n : Nat) (b0 b1 : Byte) : Prop :=
  1 ≤ b0.toNat % 16 ∧ b0.toNat % 16 ≤ 8 ∧ ¬ (b0.toNat % 16 = 8 ∧ 128 ≤ b0.toNat) ∧
  (b1.toNat = 255 ∨ (b1.toNat < 128 ∧ b1.toNat ≠ n))

/-- The entry says what its two bytes say. -/
def SeatEntry.Says (e : SeatEntry) (b0 b1 : Byte) : Prop :=
  (roleCode e.role).toNat = b0.toNat % 16 ∧ e.detect = decide (128 ≤ b0.toNat) ∧
  e.link.map (fun l => l.val) = (if b1.toNat = 255 then none else some b1.toNat)

theorem readSeat_of_ok {n : Nat} {b0 b1 : Byte} (h : SeatOk n b0 b1) :
    ∃ e, readSeat n b0 b1 = some e ∧ e.Says b0 b1 := by
  obtain ⟨hlow, hhigh, hunused, hlink⟩ := h
  obtain ⟨r, hr⟩ := roleOf_isSome hlow hhigh
  obtain ⟨hcode, hr8⟩ := roleCode_of_roleOf hr
  have hkept : ¬ (r = .unused ∧ decide (128 ≤ b0.toNat) = true) := fun ⟨h, hd⟩ =>
    hunused ⟨hr8.mp h, of_decide_eq_true hd⟩
  unfold readSeat
  simp only [low_nibble, hr, top_bit, if_neg hkept, byte_eq_255_iff]
  by_cases h255 : b1.toNat = 255
  · rw [if_pos h255]
    exact ⟨_, rfl, hcode, rfl, (if_pos h255).symm⟩
  · obtain ⟨hlt, hne⟩ := hlink.resolve_left h255
    rw [if_neg h255, dif_pos hlt, if_neg hne]
    exact ⟨_, rfl, hcode, rfl, (if_neg h255).symm⟩

theorem readSeat_of_bad {n : Nat} {b0 b1 : Byte} (h : ¬ SeatOk n b0 b1) : readSeat n b0 b1 = none := by
  unfold readSeat
  simp only [low_nibble, top_bit, byte_eq_255_iff]
  by_cases hrange : 1 ≤ b0.toNat % 16 ∧ b0.toNat % 16 ≤ 8
  · obtain ⟨r, hr⟩ := roleOf_isSome hrange.1 hrange.2
    obtain ⟨-, hr8⟩ := roleCode_of_roleOf hr
    rw [hr]
    dsimp only
    split
    · rfl
    · next hkept =>
      split
      · next h255 =>
        exact absurd ⟨hrange.1, hrange.2, fun ⟨h8, hd⟩ => hkept ⟨hr8.mpr h8, decide_eq_true hd⟩, .inl h255⟩ h
      · split
        · next hlt =>
          split
          · rfl
          · next hne => exact absurd ⟨hrange.1, hrange.2, fun ⟨h8, hd⟩ =>
              hkept ⟨hr8.mpr h8, decide_eq_true hd⟩, .inr ⟨hlt, hne⟩⟩ h
        · rfl
  · rw [roleOf_of_outside (by omega)]

/-! ### The seat table -/

/-- Seat `n`'s two bytes in the table `bs`. -/
def SeatAt (bs : List Byte) (start n : Nat) : Prop :=
  SeatOk (start + n) (byteAt bs (2 * n)) (byteAt bs (2 * n + 1))

theorem seatAt_drop (bs : List Byte) (start n : Nat) :
    SeatAt (bs.drop 2) (start + 1) n ↔ SeatAt bs start (n + 1) := by
  rw [SeatAt, SeatAt, byteAt_drop, byteAt_drop, show start + 1 + n = start + (n + 1) by omega,
    show 2 + 2 * n = 2 * (n + 1) by omega, show 2 + (2 * n + 1) = 2 * (n + 1) + 1 by omega]

/-- The first seat out of range is the error. -/
theorem readSeats_of_bad (m : Nat) {start n : Nat} {bs : List Byte} (hn : n < m)
    (hok : ∀ j, j < n → SeatAt bs start j) (hbad : ¬ SeatAt bs start n) :
    readSeats m start bs = .error (256 + (start + n)) := by
  induction m generalizing start n bs with
  | zero => exact absurd hn (Nat.not_lt_zero n)
  | succ m ih =>
    unfold readSeats
    cases n with
    | zero =>
      have h0 : readSeat start (byteAt bs 0) (byteAt bs 1) = none := readSeat_of_bad hbad
      rw [h0]
      rfl
    | succ n =>
      obtain ⟨e, he, -⟩ := readSeat_of_ok (hok 0 (by omega))
      have hrest := ih (start := start + 1) (bs := bs.drop 2) (n := n) (by omega)
        (fun j hj => (seatAt_drop bs start j).mpr (hok (j + 1) (by omega)))
        (fun h => hbad ((seatAt_drop bs start n).mp h))
      rw [show byteAt bs 0 = byteAt bs (2 * 0) from rfl, show byteAt bs 1 = byteAt bs (2 * 0 + 1) from rfl]
      rw [Nat.add_zero] at he
      rw [he, hrest, show start + 1 + n = start + (n + 1) by omega]

/-- With every seat in range the table is read, each entry from its bytes. -/
theorem readSeats_of_ok (m : Nat) {start : Nat} {bs : List Byte} (hok : ∀ j, j < m → SeatAt bs start j) :
    ∃ es, readSeats m start bs = .ok es ∧ es.length = m ∧
      ∀ (n : Nat) (e : SeatEntry), es[n]? = some e → e.Says (byteAt bs (2 * n)) (byteAt bs (2 * n + 1)) := by
  induction m generalizing start bs with
  | zero => exact ⟨[], rfl, rfl, fun n e h => nomatch h⟩
  | succ m ih =>
    obtain ⟨e0, he0, hsays⟩ := readSeat_of_ok (hok 0 (by omega))
    obtain ⟨es, hes, hlen, hall⟩ := ih (start := start + 1) (bs := bs.drop 2)
      (fun j hj => (seatAt_drop bs start j).mpr (hok (j + 1) (by omega)))
    rw [Nat.add_zero] at he0
    refine ⟨e0 :: es, ?_, by rw [List.length_cons, hlen], fun n e hn => ?_⟩
    · unfold readSeats
      rw [show byteAt bs 0 = byteAt bs (2 * 0) from rfl, show byteAt bs 1 = byteAt bs (2 * 0 + 1) from rfl, he0, hes]
    · cases n with
      | zero => cases hn; exact hsays
      | succ n =>
        have := hall n e hn
        rwa [byteAt_drop, byteAt_drop, show 2 + 2 * n = 2 * (n + 1) by omega,
          show 2 + (2 * n + 1) = 2 * (n + 1) + 1 by omega] at this

/-! ### The body (R173) -/

/-- The ranges of the eight fields before the seat table are judged in the order of R173. -/
theorem readCharter_eq (body : List Byte) :
    let field (i : Nat) : Nat := (byteAt body i).toNat
    let half (i : Nat) : Nat := field i + 256 * field (i + 1)
    readCharter body =
      if ¬ (field 4 = 255 ∨ field 4 < 16) then .error 1
      else if ¬ field 5 ≤ 4 then .error 2
      else if ¬ (10 ≤ half 6 ∧ half 6 ≤ 200) then .error 3
      else if ¬ (50 ≤ half 8 ∧ half 8 ≤ 1000) then .error 4
      else if ¬ (1 ≤ field 10 ∧ field 10 ≤ 16) then .error 5
      else if ¬ (1 ≤ field 11 ∧ field 11 ≤ field 10) then .error 6
      else if ¬ (1 ≤ field 12 ∧ field 12 ≤ 16) then .error 7
      else if ¬ (10 ≤ half 14 ∧ half 14 ≤ 500) then .error 8
      else match readSeats 128 0 (body.drop 16) with
        | .error k => .error k
        | .ok seats => .ok
          { serial := word32 body 0, archive := stationOf (field 4), mirrorShare := field 5
            lossSlices := half 6, orphanSlices := half 8, tOpen := field 10, tClose := field 11
            nOnset := field 12, nHang := half 14, seats := seats } := by
  unfold readCharter
  simp only [half16_toNat, byte_eq_255_iff] <;> rfl

theorem stationOf_val {n : Nat} (h : n = 255 ∨ n < 16) :
    (stationOf n).map (fun k => k.val) = if n = 255 then none else some n := by
  unfold stationOf
  by_cases hlt : n < 16
  · rw [dif_pos hlt, if_neg (by omega)]
    rfl
  · rw [dif_neg hlt, if_pos (h.resolve_right hlt)]
    rfl

theorem seatAt_body (body : List Byte) (n : Nat) : SeatAt (body.drop 16) 0 n ↔
    SeatOk n (byteAt body (16 + 2 * n)) (byteAt body (17 + 2 * n)) := by
  rw [SeatAt, byteAt_drop, byteAt_drop, Nat.zero_add, show 16 + (2 * n + 1) = 17 + 2 * n by omega]

/-- A CONSOLE peer's body out of range is told and nothing else (R167, R173). -/
theorem takeCharter_of_error {s : State} {k : StationId} {body : List Byte} {n : Nat}
    (hconsole : s.fromConsole k = true) (hlistening : s.listening = true)
    (hlen : body.length = 272) (hread : readCharter body = .error n) :
    s.takeCharter k body = s.raise .control .charterRejected k.val (BitVec.ofNat 16 n) := by
  rw [State.takeCharter, if_pos ⟨hconsole, hlistening, hlen⟩, hread]

/-- Settles O23: the order of the fields is the order of the reader's tests, and the seats are read by
induction on the table. -/
theorem charterRanges : Obligations.CharterRanges := by
  refine ⟨fun k body n s hreset hother hkind hmode hlen hread hraised => ?_, fun body => ?_⟩
  · rw [exec_charter k body hreset, takeCharter_of_error (fromConsole_of_kind hother hkind)
      ((listening_iff s).mpr hmode) hlen hread, settleNotices_raise hraised]
  · have heq := readCharter_eq body
    dsimp only at heq ⊢
    refine ⟨fun h1 => ?_, fun h1 h2 => ?_, fun h1 h2 h3 => ?_, fun h1 h2 h3 h4 => ?_,
      fun h1 h2 h3 h4 h5 => ?_, fun h1 h2 h3 h4 h5 h6 => ?_, fun h1 h2 h3 h4 h5 h6 h7 => ?_,
      fun h1 h2 h3 h4 h5 h6 h7 h8 => ?_, fun h1 h2 h3 h4 h5 h6 h7 h8 => ?_⟩
    · rw [heq, if_pos h1]
    · rw [heq, if_neg (not_not_intro h1), if_pos h2]
    · rw [heq, if_neg (not_not_intro h1), if_neg (not_not_intro h2), if_pos h3]
    · rw [heq, if_neg (not_not_intro h1), if_neg (not_not_intro h2), if_neg (not_not_intro h3), if_pos h4]
    · rw [heq, if_neg (not_not_intro h1), if_neg (not_not_intro h2), if_neg (not_not_intro h3),
        if_neg (not_not_intro h4), if_pos h5]
    · rw [heq, if_neg (not_not_intro h1), if_neg (not_not_intro h2), if_neg (not_not_intro h3),
        if_neg (not_not_intro h4), if_neg (not_not_intro h5), if_pos h6]
    · rw [heq, if_neg (not_not_intro h1), if_neg (not_not_intro h2), if_neg (not_not_intro h3),
        if_neg (not_not_intro h4), if_neg (not_not_intro h5), if_neg (not_not_intro h6), if_pos h7]
    · rw [heq, if_neg (not_not_intro h1), if_neg (not_not_intro h2), if_neg (not_not_intro h3),
        if_neg (not_not_intro h4), if_neg (not_not_intro h5), if_neg (not_not_intro h6),
        if_neg (not_not_intro h7), if_pos h8]
    · rw [if_neg (not_not_intro h1), if_neg (not_not_intro h2), if_neg (not_not_intro h3),
        if_neg (not_not_intro h4), if_neg (not_not_intro h5), if_neg (not_not_intro h6),
        if_neg (not_not_intro h7), if_neg (not_not_intro h8)] at heq
      refine ⟨fun n hn hok hbad => ?_, fun hok => ?_⟩
      · rw [heq, readSeats_of_bad 128 hn (fun j hj => (seatAt_body body j).mpr (hok j hj))
          (fun h => hbad ((seatAt_body body n).mp h)), Nat.zero_add]
      · obtain ⟨es, hes, hlen, hall⟩ := readSeats_of_ok 128 (start := 0) (bs := body.drop 16)
          fun j hj => (seatAt_body body j).mpr (hok j hj)
        rw [hes] at heq
        refine ⟨_, heq, rfl, stationOf_val h1, rfl, rfl, rfl, rfl, rfl, rfl, rfl, hlen, fun n e hn => ?_⟩
        have hsays := hall n e hn
        rwa [byteAt_drop, byteAt_drop, show 16 + (2 * n + 1) = 17 + 2 * n by omega] at hsays

end Sys2Proof.Machine
end


section
/-! SUPPORT. A charter that comes into force, at once in LISTEN or at a boundary (R114, R167 to R169). -/

namespace Sys2Proof.Machine

/-! ### The rings empty (R113, R114) -/

/-- Neither ring holds anything, and no run stands. -/
def State.RingsEmpty (s : State) : Prop :=
  s.rings.own.pages = [] ∧ s.rings.own.high = none ∧ s.rings.mirror.pages = [] ∧
  s.rings.mirror.high = none ∧ s.rings.runs = []

theorem State.RingsEmpty.of_rings {s t : State} (h : t.rings = s.rings) (hs : s.RingsEmpty) :
    t.RingsEmpty := by
  unfold State.RingsEmpty
  rwa [h]

theorem resplit_rings (s : State) : s.resplit.rings = { s.rings with
    own := Ring.empty, mirror := Ring.empty, runs := [] } := by
  unfold State.resplit State.restartMirror State.restartOwn
  dsimp only
  split <;> split <;> rfl

theorem resplit_rest (s : State) : s.resplit = { s with
    rings := { s.rings with own := Ring.empty, mirror := Ring.empty, runs := [] }
    store := s.store.restartWrites, raised := s.resplit.raised } := by
  obtain ⟨a, r, h⟩ := restarted_frame s causeResplit causeResplit
  have hrings := resplit_rings s
  unfold State.resplit at hrings ⊢
  rw [h] at hrings ⊢
  dsimp only [State.withStore] at hrings ⊢
  rw [hrings]

theorem restart_raised_length (s : State) (c : Half) :
    (s.restartOwn c).raised.length ≤ s.raised.length + 1 ∧
    (s.restartMirror c).raised.length ≤ s.raised.length + 1 := by
  have told (u : State) (b : Bool) (x : Raiser) (k : NoticeKind) (n : Nat) (d : Half) :
      (if b then u.raise x k n d else u).raised.length ≤ u.raised.length + 1 := by
    split
    · rw [raise_raised, List.length_append, List.length_singleton]
    · exact Nat.le_succ _
  exact ⟨told _ _ _ _ _ _, told _ _ _ _ _ _⟩

theorem resplit_raised_length (s : State) : s.resplit.raised.length ≤ s.raised.length + 2 := by
  have hown := (restart_raised_length s causeResplit).1
  have hmirror := (restart_raised_length (s.restartOwn causeResplit) causeResplit).2
  change ((s.restartOwn causeResplit).restartMirror causeResplit).raised.length ≤ _
  omega

theorem beginOwn_of_empty {s : State} (p : OwnPage) (h : s.RingsEmpty) : s.beginOwn p = s := by
  obtain ⟨hpages, hhigh, -⟩ := h
  unfold State.beginOwn State.makeRoomOwn
  simp only [hhigh, hpages]
  split <;> rfl

theorem beginMirror_of_empty {s : State} (p : MirrorPage) (h : s.RingsEmpty) : s.beginMirror p = s := by
  obtain ⟨-, -, hpages, hhigh, -⟩ := h
  unfold State.beginMirror State.makeRoomMirror
  simp only [hhigh, hpages]
  split <;> rfl

theorem answerClaim_rings (s : State) (f : Lookup) : (s.answerClaim f).rings = s.rings := by
  have produced (u : State) : (u.produceLookup f).rings = u.rings := by
    unfold State.produceLookup
    split
    · rfl
    · split <;> rfl
  exact produced (s.withServer { s.server with claim := none })

/-- The grant leaves empty rings empty: it only makes room in them (R103). -/
theorem grant_ringsEmpty {s : State} (h : s.RingsEmpty) : s.grant.RingsEmpty := by
  refine grantFrom_relates (P := fun s t => s.RingsEmpty → t.RingsEmpty) (fun _ h => h)
    (fun f g h => g (f h)) (fun _ _ h => h) (fun u p hu => ?_) (fun u p hu => ?_) (fun _ h => h)
    (fun _ _ _ _ _ h => h) (fun u f c _ hu => ?_) _ s h
  · cases hw : u.store.captureWrite with
    | some w => rw [grantCapture_begun p hw]; exact hu
    | none => rw [grantCapture_first p hw, beginOwn_of_empty p hu]; exact hu
  · cases hw : u.store.mirrorWrite with
    | some w => rw [grantMirror_begun p hw]; exact hu
    | none => rw [grantMirror_first p hw, beginMirror_of_empty p hu]; exact hu
  · unfold State.RingsEmpty
    rw [answerClaim_rings]
    exact hu

theorem finish_ringsEmpty {s : State} (h : s.RingsEmpty) : s.finish.RingsEmpty := grant_ringsEmpty h

theorem recompute_ringsEmpty {s : State} (h : s.RingsEmpty) : s.recompute.RingsEmpty := by
  obtain ⟨hown, hownHigh, hmirror, hmirrorHigh, hruns⟩ := h
  obtain hr | hr := recompute_rings s
  · exact ⟨by rw [hr, hown], by rw [hr, hownHigh], by rw [hr, hmirror], by rw [hr, hmirrorHigh],
      by rw [hr, hruns]⟩
  · refine ⟨by rw [hr, hown], by rw [hr, hownHigh], by rw [hr, hmirror], by rw [hr, hmirrorHigh], ?_⟩
    rw [hr, hruns]
    rfl

/-! ### A charter in force (R168, R169) -/

/-- A charter with the same mirror share leaves the rings and the store. -/
theorem enforce_same {s : State} {p : PendingCharter}
    (hsame : p.charter.mirrorShare = s.control.charter.mirrorShare) : ∃ e, s.enforce p = { s with
      roster := { s.roster with entries := e }, control := { s.control with
        status := .adopted, charter := p.charter, digest := p.digest, pendingCharter := none }
      raised := s.raised ++ [{ raiser := .control
                               notice := { kind := .charterAdopted, slice := s.clock.index
                                           subject := byte p.sender.val
                                           detail := sliceDetail p.charter.serial } }] } := by
  unfold State.enforce
  dsimp only
  rw [if_neg (not_not_intro hsame)]
  exact ⟨_, rfl⟩

/-- A charter with another mirror share empties both rings (R114). -/
theorem enforce_other {s : State} {p : PendingCharter}
    (hother : p.charter.mirrorShare ≠ s.control.charter.mirrorShare) : ∃ e r, s.enforce p = { s with
      roster := { s.roster with entries := e }
      rings := { s.rings with own := Ring.empty, mirror := Ring.empty, runs := [] }
      store := s.store.restartWrites, control := { s.control with
        status := .adopted, charter := p.charter, digest := p.digest, pendingCharter := none }
      raised := r } := by
  unfold State.enforce
  dsimp only
  rw [if_pos hother, resplit_rest]
  exact ⟨_, _, rfl⟩

theorem enforce_raised_length (s : State) (p : PendingCharter) :
    (s.enforce p).raised.length ≤ s.raised.length + 3 := by
  rw [enforce_raised, List.length_append, List.length_singleton]
  have := resplit_raised_length s
  split <;> omega

theorem charterAdopted_mem_enforce (s : State) (p : PendingCharter) :
    ({ raiser := .control
       notice := { kind := .charterAdopted, slice := s.clock.index
                   subject := byte p.sender.val
                   detail := sliceDetail p.charter.serial } } : Raised) ∈ (s.enforce p).raised := by
  rw [enforce_raised]
  exact List.mem_append_right _ (List.mem_singleton.mpr rfl)

/-! ### The detect settings (R73, R168) -/

/-- A lane's detector as the charter sets it. -/
def Charter.setting (c : Charter) (k : StationId) (l : Lane) : Detector :=
  if (c.seat (roomSeat k l)).detect then .quiet else .disabled

theorem settingsFrom_eq (s : State) (c : Charter) : s.settingsFrom c =
    s.presentLanes.foldl (fun u l => u.setDetector l (c.setting s.control.id l)) s := by
  have same (ls : List Lane) (u : State) (hu : u.control.id = s.control.id) :
      ls.foldl (fun u l => u.setDetector l
        (if (c.seat (roomSeat u.control.id l)).detect then .quiet else .disabled)) u =
      ls.foldl (fun u l => u.setDetector l (c.setting s.control.id l)) u := by
    induction ls generalizing u with
    | nil => rfl
    | cons l ls ih =>
      rw [List.foldl_cons, List.foldl_cons, hu]
      exact ih _ hu
  exact same _ s rfl

/-- The detectors take their settings from the charter. -/
theorem settingsFrom_detectors (s : State) (c : Charter) (l : Lane) (hl : l ∈ s.presentLanes) :
    look (s.settingsFrom c).spans.detectors l = c.setting s.control.id l := by
  rw [settingsFrom_eq, look_foldl_put (fun u l => State.setDetector u l (c.setting s.control.id l))
    (fun u => u.spans.detectors) (fun l _ => c.setting s.control.id l) (fun _ _ => rfl) _
    (presentLanes_nodup s), if_pos hl]

theorem settingsFrom_rest (s : State) (c : Charter) : s.settingsFrom c = { s with
    spans := { s.spans with detectors := (s.settingsFrom c).spans.detectors } } := by
  have only (ls : List Lane) (u : State) : ∃ d,
      ls.foldl (fun u l => u.setDetector l (c.setting s.control.id l)) u =
        { u with spans := { u.spans with detectors := d } } := by
    induction ls generalizing u with
    | nil => exact ⟨_, rfl⟩
    | cons l ls ih =>
      obtain ⟨d, h⟩ := ih (u.setDetector l (c.setting s.control.id l))
      exact ⟨d, h⟩
  obtain ⟨d, h⟩ := only s.presentLanes s
  rw [← settingsFrom_eq] at h
  rw [h]

/-! ### A charter adopted in LISTEN (R168) -/

theorem adoptNow_same {s : State} {p : PendingCharter}
    (hsame : p.charter.mirrorShare = s.control.charter.mirrorShare) :
    s.adoptNow p = (s.enforce p).settingsFrom p.charter :=
  if_neg (not_not_intro hsame)

theorem adoptNow_other {s : State} {p : PendingCharter}
    (hother : p.charter.mirrorShare ≠ s.control.charter.mirrorShare) :
    s.adoptNow p = ((s.enforce p).settingsFrom p.charter).recompute :=
  if_pos hother

/-- The state before the selections of a charter adopted in LISTEN. -/
theorem settled_charter (s : State) (p : PendingCharter) : ∃ d e g st r,
    (s.enforce p).settingsFrom p.charter = { s with
      spans := { s.spans with detectors := d }, roster := { s.roster with entries := e }
      rings := g, store := st, control := { s.control with
        status := .adopted, charter := p.charter, digest := p.digest, pendingCharter := none }
      raised := r } := by
  have hset := settingsFrom_rest (s.enforce p) p.charter
  by_cases hsame : p.charter.mirrorShare = s.control.charter.mirrorShare
  · obtain ⟨e, h⟩ := enforce_same hsame
    rw [hset, h]
    exact ⟨_, _, _, _, _, rfl⟩
  · obtain ⟨e, r, h⟩ := enforce_other hsame
    rw [hset, h]
    exact ⟨_, _, _, _, _, rfl⟩

/-- What a charter adopted in LISTEN replaces. -/
theorem adoptNow_rest (s : State) (p : PendingCharter) : ∃ c d a g st x r,
    s.adoptNow p = { s with
      clock := c, spans := { s.spans with detectors := d }, roster := a
      rings := g, store := st, control := { s.control with
        status := .adopted, charter := p.charter, digest := p.digest, pendingCharter := none
        correction := x }
      raised := r } := by
  obtain ⟨_, _, _, _, _, h⟩ := settled_charter s p
  by_cases hsame : p.charter.mirrorShare = s.control.charter.mirrorShare
  · rw [adoptNow_same hsame, h]
    exact ⟨_, _, _, _, _, _, _, rfl⟩
  · obtain ⟨_, _, _, _, _, _, h'⟩ := recompute_frame ((s.enforce p).settingsFrom p.charter)
    rw [adoptNow_other hsame, h', h]
    exact ⟨_, _, _, _, _, _, _, rfl⟩

theorem adoptNow_detectors (s : State) (p : PendingCharter) (l : Lane) (hl : l ∈ s.presentLanes) :
    look (s.adoptNow p).spans.detectors l = p.charter.setting s.control.id l := by
  have hpresent : l ∈ (s.enforce p).presentLanes := by
    rw [mem_presentLanes] at hl ⊢
    by_cases hsame : p.charter.mirrorShare = s.control.charter.mirrorShare
    · obtain ⟨e, h⟩ := enforce_same hsame
      rwa [h]
    · obtain ⟨e, r, h⟩ := enforce_other hsame
      rwa [h]
  have hid : (s.enforce p).control.id = s.control.id := by rw [enforce_control]
  have hset := settingsFrom_detectors (s.enforce p) p.charter l hpresent
  rw [hid] at hset
  by_cases hsame : p.charter.mirrorShare = s.control.charter.mirrorShare
  · rw [adoptNow_same hsame, hset]
  · obtain ⟨_, _, _, _, _, _, h'⟩ := recompute_frame ((s.enforce p).settingsFrom p.charter)
    rw [adoptNow_other hsame, h']
    exact hset

theorem adoptNow_rings_same {s : State} {p : PendingCharter}
    (hsame : p.charter.mirrorShare = s.control.charter.mirrorShare) :
    (s.adoptNow p).rings = s.rings ∧ (s.adoptNow p).store = s.store := by
  obtain ⟨e, h⟩ := enforce_same hsame
  rw [adoptNow_same hsame, settingsFrom_rest, h]
  exact ⟨rfl, rfl⟩

theorem adoptNow_rings_other {s : State} {p : PendingCharter}
    (hother : p.charter.mirrorShare ≠ s.control.charter.mirrorShare) :
    (s.adoptNow p).RingsEmpty ∧ (s.adoptNow p).rings.marks = s.rings.marks := by
  obtain ⟨e, r, h⟩ := enforce_other hother
  have hrings : ((s.enforce p).settingsFrom p.charter).rings = { s.rings with
      own := Ring.empty, mirror := Ring.empty, runs := [] } := by
    rw [settingsFrom_rest, h]
  have hempty : ((s.enforce p).settingsFrom p.charter).RingsEmpty := by
    unfold State.RingsEmpty
    rw [hrings]
    exact ⟨rfl, rfl, rfl, rfl, rfl⟩
  rw [adoptNow_other hother]
  refine ⟨recompute_ringsEmpty hempty, ?_⟩
  obtain hr | hr := recompute_rings ((s.enforce p).settingsFrom p.charter)
  · rw [hr, hrings]
  · rw [hr, hrings]

theorem adoptNow_raised_length (s : State) (p : PendingCharter) :
    (s.adoptNow p).raised.length ≤ s.raised.length + 6 := by
  have henforced := enforce_raised_length s p
  have hset : ((s.enforce p).settingsFrom p.charter).raised = (s.enforce p).raised := by
    rw [settingsFrom_rest]
  by_cases hsame : p.charter.mirrorShare = s.control.charter.mirrorShare
  · rw [adoptNow_same hsame, hset]
    omega
  · have hselected := recompute_raised_length ((s.enforce p).settingsFrom p.charter)
    rw [hset] at hselected
    rw [adoptNow_other hsame]
    omega

theorem charterAdopted_mem_adoptNow (s : State) (p : PendingCharter) :
    ({ raiser := .control
       notice := { kind := .charterAdopted, slice := s.clock.index
                   subject := byte p.sender.val
                   detail := sliceDetail p.charter.serial } } : Raised) ∈ (s.adoptNow p).raised := by
  have hset := (settingsFrom_tells (s.enforce p) p.charter).mem (charterAdopted_mem_enforce s p)
  by_cases hsame : p.charter.mirrorShare = s.control.charter.mirrorShare
  · rw [adoptNow_same hsame]
    exact hset
  · rw [adoptNow_other hsame]
    exact (recompute_tells _).mem hset

/-! ### The other cases of R167 -/

theorem pendingIs_iff {c : Control} {p : PendingCharter} (h : c.pendingCharter = some p) (d : Word) :
    c.pendingIs d = true ↔ p.digest = d := by
  rw [Control.pendingIs, h]
  exact decide_eq_true_iff

section Judged

variable {s : State} {p : PendingCharter}

/-- On defaults with none pending a charter becomes pending in RUN and IDLE. -/
theorem judgeCharter_pends (hactive : s.active = true) (hstatus : s.control.status = .defaulted)
    (hnone : s.control.pendingCharter = none) :
    s.judgeCharter p = s.withControl { s.control with pendingCharter := some p } := by
  have hnot : ¬ s.control.pendingIs p.digest = true := by
    rw [Control.pendingIs, hnone]
    exact Bool.false_ne_true
  unfold State.judgeCharter
  dsimp only
  rw [if_neg (by rw [hstatus]; exact fun h => nomatch h.2), if_neg, if_pos ⟨hactive, hstatus, hnone⟩]
  rintro (⟨h, -⟩ | ⟨-, h⟩)
  · exact nomatch hstatus.symm.trans h
  · exact hnot h

/-- The pending charter again is passed over, and another is ignored. -/
theorem judgeCharter_pending {q : PendingCharter} (hstatus : s.control.status = .defaulted)
    (hsome : s.control.pendingCharter = some q) : s.judgeCharter p =
      if q.digest = p.digest then s
      else s.raise .control .charterIgnored p.sender.val (sliceDetail p.charter.serial) := by
  unfold State.judgeCharter
  dsimp only
  rw [if_neg (by rw [hstatus]; exact fun h => nomatch h.2)]
  by_cases hsame : q.digest = p.digest
  · rw [if_pos (.inr ⟨hstatus, (pendingIs_iff hsome _).mpr hsame⟩), if_pos hsame]
  · have hpending : s.control.pendingCharter ≠ none := by
      rw [hsome]
      exact Option.some_ne_none q
    rw [if_neg, if_neg (fun h => hpending h.2.2), if_pos (.inr ⟨hstatus, hpending⟩), if_neg hsame]
    rintro (⟨h, -⟩ | ⟨-, h⟩)
    · exact nomatch hstatus.symm.trans h
    · exact hsame ((pendingIs_iff hsome _).mp h)

/-- The charter in force again is passed over, and another is ignored. -/
theorem judgeCharter_adopted (hstatus : s.control.status = .adopted) : s.judgeCharter p =
      if p.digest = s.control.digest then s
      else s.raise .control .charterIgnored p.sender.val (sliceDetail p.charter.serial) := by
  have hnot : ¬ s.control.status = .defaulted := by
    rw [hstatus]
    exact nofun
  unfold State.judgeCharter
  dsimp only
  rw [if_neg (by rw [hstatus]; exact fun h => nomatch h.2)]
  by_cases hsame : p.digest = s.control.digest
  · rw [if_pos (.inl ⟨hstatus, hsame⟩), if_pos hsame]
  · rw [if_neg, if_neg (fun h => hnot h.2.1), if_pos (.inl hstatus), if_neg hsame]
    rintro (⟨-, h⟩ | ⟨h, -⟩)
    · exact hsame h
    · exact hnot h

end Judged

/-! ### The pending charter at a boundary (R169) -/

/-- A change of station state leaves a settled charter. -/
theorem changeMode_charter {s : State} (b : Bool) (hsettled : s.control.status ≠ .unsettled) :
    ∃ m l j c f x p q, (s.changeMode b).control = { s.control with
      mode := m, listen := l, join := j, condition := c, followed := f, correction := x
      pendingStop := p, pendingStart := q } := by
  have defaults (u : State) (hu : u.control.status ≠ .unsettled) : u.settleDefaults = u :=
    if_neg fun h => hu h.2
  unfold State.changeMode
  split
  · exact ⟨_, _, _, _, _, _, _, _, rfl⟩
  · split <;> exact ⟨_, _, _, _, _, _, _, _, rfl⟩
  · unfold State.decideListen
    dsimp only
    rw [defaults _ (by exact hsettled)]
    split <;> exact ⟨_, _, _, _, _, _, _, _, rfl⟩
  · split <;> exact ⟨_, _, _, _, _, _, _, _, rfl⟩
  · split
    · exact ⟨_, _, _, _, _, _, _, _, rfl⟩
    · split <;> exact ⟨_, _, _, _, _, _, _, _, rfl⟩

theorem settled_of_some {c : Control} {p : PendingCharter} (h : c.pendingCharter = some p) :
    c.settled = { c with
      status := .adopted, charter := p.charter, digest := p.digest, pendingCharter := none
      condition := c.pendingCondition.getD c.condition, pendingCondition := none } := by
  rw [Control.settled, h]

section Pending

variable {s : State} {p : PendingCharter} (b : Bool) (x : Presented) (n : Nat)
  (hpending : s.control.pendingCharter = some p)

include hpending

theorem boundary_charter : (s.boundary b x n).control.status = .adopted ∧
    (s.boundary b x n).control.charter = p.charter ∧ (s.boundary b x n).control.digest = p.digest ∧
    (s.boundary b x n).control.pendingCharter = none := by
  have hadopted : (s.adopted b x n).control.status = .adopted := by
    rw [adopted_control, settled_of_some hpending]
  obtain ⟨_, _, _, _, _, _, _, _, h⟩ := changeMode_charter b (s := s.adopted b x n)
    (by rw [hadopted]; exact nofun)
  obtain ⟨_, hx⟩ := boundary_of_controlled s b x n
  rw [hx, State.controlled, h, adopted_control, settled_of_some hpending]
  exact ⟨rfl, rfl, rfl, rfl⟩

theorem adopted_enforced : s.adopted b x n = ((s.seated b x n).enforce p).changeCondition := by
  rw [State.adopted, State.adoptPending, seated_control, hpending]

theorem boundary_charterAdopted : ({ raiser := .control
                                     notice := { kind := .charterAdopted, slice := x.next
                                                 subject := byte p.sender.val
                                                 detail := sliceDetail p.charter.serial } } : Raised) ∈
    (s.boundary b x n).raised := by
  have hindex : (s.seated b x n).clock.index = x.next := by
    have h := adopted_index s b x n
    rwa [adopted_enforced b x n hpending, changeCondition_clock, enforce_clock] at h
  refine (controlled_tells s b x n).mem ((changeMode_tells _ b).mem ?_)
  rw [adopted_enforced b x n hpending, changeCondition_raised, ← hindex]
  exact charterAdopted_mem_enforce _ p

theorem adopted_ringsEmpty (hother : p.charter.mirrorShare ≠ s.control.charter.mirrorShare) :
    (s.adopted b x n).RingsEmpty := by
  have hrings (u : State) : u.changeCondition.rings = u.rings := by
    unfold State.changeCondition
    split <;> rfl
  obtain ⟨_, _, h⟩ := enforce_other (s := s.seated b x n) (p := p) (by rw [seated_control]; exact hother)
  rw [adopted_enforced b x n hpending, State.RingsEmpty, hrings, h]
  exact ⟨rfl, rfl, rfl, rfl, rfl⟩

theorem boundary_ringsEmpty (hother : p.charter.mirrorShare ≠ s.control.charter.mirrorShare) :
    (s.boundary b x n).RingsEmpty := by
  have controlled : (s.controlled b x n).rings = (s.adopted b x n).rings := by
    obtain ⟨_, _, h⟩ := changeMode_onlyControl (s.adopted b x n) b
    rw [State.controlled, h]
  have selected : (s.boundary b x n).rings = (s.controlled b x n).recompute.rings := by
    rw [boundary_eq, State.selected]
    generalize (s.controlled b x n).recompute = u
    unfold State.endFree
    split <;> rfl
  exact .of_rings selected (recompute_ringsEmpty
    (.of_rings controlled (adopted_ringsEmpty b x n hpending hother)))

end Pending

/-! ### The obligation -/

/-- Settles O24: a charter adopted at once, one that becomes pending or is passed over, and the pending one
at the next boundary. -/
theorem charterJudged : Obligations.CharterJudged := by
  refine ⟨fun k body c s hreset hother hkind hlen hread => ?_, fun b p s hreset hplan hpending => ?_⟩
  · have hconsole : s.fromConsole k = true := fromConsole_of_kind hother hkind
    have heard (hlistening : s.listening = true) : exec (.charter k body) s =
        .next (s.judgeCharter { charter := c, digest := crc32 body, sender := k }).settleNotices := by
      rw [exec_charter k body hreset, takeCharter_of_ok hconsole hlistening hlen hread]
    refine ⟨fun hmode hstatus =>
        ⟨(s.adoptNow { charter := c, digest := crc32 body, sender := k }).settleNotices, ?_, ?_⟩,
      fun hactive hstatus hnone hraised => ?_,
      fun hactive hstatus hraised p hp => ?_, fun hmode hstatus hraised => ?_⟩
    · rw [heard (listening_of_listen hmode), judgeCharter_of_unsettled _ hmode hstatus]
    · have hrest := adoptNow_rest s { charter := c, digest := crc32 body, sender := k }
      have hsame := @adoptNow_rings_same s { charter := c, digest := crc32 body, sender := k }
      have hempty := @adoptNow_rings_other s { charter := c, digest := crc32 body, sender := k }
      have hlanes := adoptNow_detectors s { charter := c, digest := crc32 body, sender := k }
      have htold := charterAdopted_mem_adoptNow s { charter := c, digest := crc32 body, sender := k }
      have hlen := adoptNow_raised_length s { charter := c, digest := crc32 body, sender := k }
      generalize s.adoptNow { charter := c, digest := crc32 body, sender := k } = u at *
      simp only [settleNotices_control, settleNotices_spans, settleNotices_rings, settleNotices_store,
        settleNotices_link, settleNotices_seat, settleNotices_server, settleNotices_dram,
        settleNotices_pending]
      have hjoined (hraised : s.raised = []) (hroom : s.notices.entries.length ≤ 56) :
          { kind := .charterAdopted, slice := s.clock.index, subject := byte k.val
            detail := sliceDetail c.serial : Notice } ∈ u.settleNotices.notices.entries := by
        refine mem_settleNotices_of_room ?_ htold
        have hnotices : u.notices = s.notices := by
          obtain ⟨_, _, _, _, _, _, _, h⟩ := hrest
          rw [h]
        rw [hraised, List.length_nil] at hlen
        rw [hnotices]
        omega
      have hotherRings (h : c.mirrorShare ≠ s.control.charter.mirrorShare) :
          u.rings.own.pages = [] ∧ u.rings.own.high = none ∧ u.rings.mirror.pages = [] ∧
          u.rings.mirror.high = none ∧ u.rings.runs = [] ∧ u.rings.marks = s.rings.marks := by
        obtain ⟨⟨h1, h2, h3, h4, h5⟩, h6⟩ := hempty h
        exact ⟨h1, h2, h3, h4, h5, h6⟩
      obtain ⟨_, _, _, _, _, _, _, h⟩ := hrest
      refine ⟨?_, ?_, ?_, ?_, ?_, ?_, hjoined, hlanes, ?_, ?_, hsame, hotherRings, ?_, ?_, ?_, ?_, ?_⟩ <;>
        rw [h]
      exact hmode
    · rw [heard ((listening_iff s).mpr (.inl hactive)), judgeCharter_pends hactive hstatus hnone,
        settleNotices_none _ (by exact hraised)]
      rfl
    · rw [heard ((listening_iff s).mpr (.inl hactive)), judgeCharter_pending hstatus hp]
      refine ⟨fun hsame => ?_, fun hnot => ?_⟩
      · rw [if_pos hsame, settleNotices_none _ hraised]
      · rw [if_neg hnot, settleNotices_raise hraised]
    · rw [heard ((listening_iff s).mpr hmode), judgeCharter_adopted hstatus]
      refine ⟨fun hsame => ?_, fun hnot => ?_⟩
      · rw [if_pos hsame, settleNotices_none _ hraised]
      · rw [if_neg hnot, settleNotices_raise hraised]
  · obtain ⟨hstatus, hcharter, hdigest, hnone⟩ :=
      boundary_charter b s.ordinary (sliceLength s.clock.applied) hpending
    refine ⟨_, exec_sliceBoundary b s hreset hplan, rfl,
      boundary_charterAdopted b s.ordinary _ hpending, ?_⟩
    rw [finish_control]
    exact ⟨hstatus, hcharter, hdigest, hnone, fun hother =>
      finish_ringsEmpty (boundary_ringsEmpty b s.ordinary _ hpending hother)⟩

end Sys2Proof.Machine
end


section
/-! SUPPORT. The operation boundary of an idle store, claimant by claimant (R123, R128, R131 to R135), and
the release of ST_WAIT (R126). -/

namespace Sys2Proof.Machine

/-! ### The claimants in order (R131) -/

/-- The store is READY and idle, may start an operation, and no refresh is urgent. -/
structure State.Serving (s : State) : Prop where
  idle : s.store.op = none
  released : s.stWait = false
  ready : s.store.phase = .ready
  calm : s.store.debt < 6

theorem not_waiting {s : State} (hidle : s.store.op = none) (hreleased : s.stWait = false) :
    ¬ (s.store.op ≠ none ∨ s.stWait = true) := by
  rintro (h | h)
  · exact h hidle
  · exact Bool.false_ne_true (hreleased.symm.trans h)

section Claimants

variable {s : State} {n : Nat}

theorem grant_of_pause (hidle : s.store.op = none) (hreleased : s.stWait = false)
    (hphase : s.store.phase = .pause) : s.grant = s := by
  unfold State.grant State.grantFrom
  rw [if_neg (not_waiting hidle hreleased), hphase]

theorem grant_of_init (hidle : s.store.op = none) (hreleased : s.stWait = false)
    (hphase : s.store.phase = .initRefresh) : s.grant = s.withStore { s.store with op := some .refresh } := by
  have hstart : s.store.startRefresh = { s.store with op := some .refresh } := by
    have hnot : ¬ s.store.phase = .ready := by
      rw [hphase]
      exact nofun
    rw [Store.startRefresh, if_neg hnot]
  unfold State.grant State.grantFrom
  rw [if_neg (not_waiting hidle hreleased), hstart]
  split
  · next h => exact nomatch hphase.symm.trans h
  · rfl
  · next h => exact nomatch hphase.symm.trans h

theorem startRefresh_of_ready {x : Store} (h : x.phase = .ready) :
    x.startRefresh = { x with op := some .refresh, debt := x.debt - 1 } := by
  rw [Store.startRefresh, if_pos h]

theorem grant_of_urgent (hidle : s.store.op = none) (hreleased : s.stWait = false)
    (hready : s.store.phase = .ready) (hurgent : 6 ≤ s.store.debt) :
    s.grant = s.withStore { s.store with op := some .refresh, debt := s.store.debt - 1 } := by
  unfold State.grant State.grantFrom
  rw [if_neg (not_waiting hidle hreleased), hready]
  dsimp only
  rw [if_pos hurgent, startRefresh_of_ready hready]

/-- With no urgent refresh the store serves the first claimant. -/
theorem grantFrom_serving (hs : s.Serving) : s.grantFrom (n + 1) =
    match s.store.captureClaim with
    | some p => s.grantCapture p
    | none =>
      match s.store.mirror with
      | p :: _ =>
        if s.store.mirrorWrite = none ∧ s.mirrorCap = 0 then s.discardMirror.grantFrom n
        else s.grantMirror p
      | [] =>
        match s.server.claim, s.server.pos with
        | some c, some pos =>
          match s.lookup c.source c.slice c.lane with
          | .held p => s.grantRead c p pos
          | .absent => (s.answerClaim .absent).grantFrom n
          | .notYet => (s.answerClaim .notYet).grantFrom n
          | .beforeRetention => (s.answerClaim .beforeRetention).grantFrom n
          | .missing => (s.answerClaim .missing).grantFrom n
        | _, _ => if 1 ≤ s.store.debt then s.withStore s.store.startRefresh else s := by
  have hcalm : ¬ 6 ≤ s.store.debt := Nat.not_le.mpr hs.calm
  rw [State.grantFrom, if_neg (not_waiting hs.idle hs.released), hs.ready]
  dsimp only
  exact if_neg hcalm

theorem grantFrom_of_capture (hs : s.Serving) {p : OwnPage} (hclaim : s.store.captureClaim = some p) :
    s.grantFrom (n + 1) = s.grantCapture p := by
  rw [grantFrom_serving hs, hclaim]

section Staged

variable (hs : s.Serving) (hcapture : s.store.captureClaim = none)

include hs hcapture

theorem grantFrom_of_mirror {p : MirrorPage} {rest : List MirrorPage} (hmirror : s.store.mirror = p :: rest)
    (hplace : s.store.mirrorWrite ≠ none ∨ 0 < s.mirrorCap) :
    s.grantFrom (n + 1) = s.grantMirror p := by
  rw [grantFrom_serving hs, hcapture, hmirror]
  exact if_neg fun ⟨hwrite, hcap⟩ => hplace.elim (fun h => h hwrite) fun h => by omega

theorem grantFrom_of_discard {p : MirrorPage} {rest : List MirrorPage} (hmirror : s.store.mirror = p :: rest)
    (hwrite : s.store.mirrorWrite = none) (hcap : s.mirrorCap = 0) :
    s.grantFrom (n + 1) = s.discardMirror.grantFrom n := by
  rw [grantFrom_serving hs, hcapture, hmirror]
  exact if_pos ⟨hwrite, hcap⟩

variable (hmirror : s.store.mirror = [])

include hmirror

theorem grantFrom_of_read {c : Claim} {pos : ReadPos} {r : PageRecord} (hclaim : s.server.claim = some c)
    (hpos : s.server.pos = some pos) (hheld : s.lookup c.source c.slice c.lane = .held r) :
    s.grantFrom (n + 1) = s.grantRead c r pos := by
  rw [grantFrom_serving hs, hcapture, hmirror, hclaim, hpos]
  dsimp only
  rw [hheld]

theorem grantFrom_of_answer {c : Claim} {pos : ReadPos} {f : Lookup} (hclaim : s.server.claim = some c)
    (hpos : s.server.pos = some pos) (hfound : s.lookup c.source c.slice c.lane = f)
    (hnone : ∀ r, f ≠ .held r) : s.grantFrom (n + 1) = (s.answerClaim f).grantFrom n := by
  rw [grantFrom_serving hs, hcapture, hmirror, hclaim, hpos]
  dsimp only
  rw [hfound]
  cases f with
  | held r => exact absurd rfl (hnone r)
  | _ => rfl

theorem grantFrom_of_routine (hclaim : s.server.claim = none) : s.grantFrom (n + 1) =
    s.withStore { s.store with
      op := if 1 ≤ s.store.debt then some .refresh else none, debt := s.store.debt - 1 } := by
  rw [grantFrom_serving hs, hcapture, hmirror, hclaim]
  dsimp only
  by_cases hdebt : 1 ≤ s.store.debt
  · rw [if_pos hdebt, if_pos hdebt, startRefresh_of_ready hs.ready]
  · rw [if_neg hdebt, if_neg hdebt, show s.store.debt - 1 = s.store.debt by omega, ← hs.idle]
    rfl

end Staged

/-- Which capture page claims a write (R131). -/
theorem captureClaim_of_staged {p : OwnPage} {rest : List OwnPage} (hcapture : s.store.capture = p :: rest)
    (hsettled : s.store.captureWrite ≠ none ∨ p.outcome ≠ .awaiting) : s.store.captureClaim = some p := by
  rw [Store.captureClaim, hcapture]
  exact if_pos (hsettled.imp_left Option.isSome_iff_ne_none.mpr)

theorem captureClaim_of_awaiting (hwrite : s.store.captureWrite = none)
    (hawaiting : ∀ p more, s.store.capture = p :: more → p.outcome = .awaiting) :
    s.store.captureClaim = none := by
  rw [Store.captureClaim]
  cases hcapture : s.store.capture with
  | nil => rfl
  | cons p rest =>
    refine if_neg ?_
    rintro (h | h)
    · rw [hwrite] at h
      exact Bool.false_ne_true h
    · exact h (hawaiting p rest hcapture)

theorem captureClaim_of_empty (hcapture : s.store.capture = []) : s.store.captureClaim = none := by
  rw [Store.captureClaim, hcapture]

end Claimants

/-! ### The own ring makes room (R103, R105, R106) -/

theorem beginOwn_kept {s : State} {p : OwnPage} (hhigh : ∀ h, s.rings.own.high = some h →
    before h p.slice = true) : s.beginOwn p = s.makeRoomOwn := by
  unfold State.beginOwn
  cases hown : s.rings.own.high with
  | none => rfl
  | some h => simp only [hhigh h hown, if_true]

theorem beginOwn_restarted {s : State} {p : OwnPage} {h : Slice} (hhigh : s.rings.own.high = some h)
    (hbefore : before h p.slice = false) : s.beginOwn p =
      ({ s with rings := { s.rings with own := Ring.empty } }).raise .rings .ringRestarted 0 2 := by
  have hheld : s.rings.own.held = true := by
    rw [Ring.held, hhigh, Option.isSome_some, Bool.or_true]
  have hrestart : s.restartOwn causeBackwardOwn =
      ({ s with rings := { s.rings with own := Ring.empty } }).raise .rings .ringRestarted 0 2 := by
    unfold State.restartOwn
    exact if_pos hheld
  have hempty : (s.restartOwn causeBackwardOwn).makeRoomOwn = s.restartOwn causeBackwardOwn := by
    rw [hrestart]
    unfold State.makeRoomOwn
    split <;> rfl
  rw [← hrestart, ← hempty]
  unfold State.beginOwn
  simp only [hhigh, hbefore]
  rfl

theorem makeRoomOwn_of_room {s : State} (hroom : s.rings.own.pages.length < s.ownCap) :
    s.makeRoomOwn = s := if_pos hroom

theorem makeRoomOwn_of_full {s : State} {q : PageRecord} {more : List PageRecord}
    (hpages : s.rings.own.pages = q :: more) (hfull : s.ownCap ≤ s.rings.own.pages.length) :
    s.makeRoomOwn =
      ({ s with rings := { s.rings with own := { s.rings.own with pages := more } } } : State).judge q := by
  unfold State.makeRoomOwn
  rw [if_neg (Nat.not_lt.mpr hfull), hpages]
  rfl

/-- What an overwrite does (R106). -/
theorem judge_eq (s : State) (q : PageRecord) : s.judge q = { s with
    rings := { s.rings with
      unarchived := s.rings.unarchived + (if s.rings.unarchivedSlice q.source q.slice then 1 else 0)
      armed := if s.rings.unarchivedSlice q.source q.slice then put s.rings.armed q.source false
        else s.rings.armed }
    raised := if s.rings.unarchivedSlice q.source q.slice = true ∧
        look s.rings.armed q.source = true then
      s.raised ++ [{ raiser := .rings
                     notice := { kind := .unarchivedOverwrite, slice := s.clock.index
                                 subject := byte q.source.val, detail := sliceDetail q.slice } }]
      else s.raised } := by
  unfold State.judge
  by_cases hunarchived : s.rings.unarchivedSlice q.source q.slice = true
  · by_cases harmed : look s.rings.armed q.source = true
    · simp only [hunarchived, harmed, and_self, if_true]
      rfl
    · simp only [hunarchived, harmed, Bool.false_eq_true, and_false, if_true, if_false]
      rfl
  · have hzero : s.rings.unarchived + (0 : Half) = s.rings.unarchived := BitVec.add_zero _
    simp only [hunarchived, Bool.false_eq_true, false_and, if_false, hzero]

/-! ### The mirror ring makes room (R103, R109, R111) -/

theorem beginMirror_kept {s : State} {p : MirrorPage} (hhigh : ∀ h, s.rings.mirror.high = some h →
    p.slice ≠ h ∧ before p.slice h = false) : s.beginMirror p = s.makeRoomMirror := by
  unfold State.beginMirror
  cases hmirror : s.rings.mirror.high with
  | none => rfl
  | some h =>
    obtain ⟨hne, hnot⟩ := hhigh h hmirror
    simp only [hnot, if_neg hne]
    rfl

theorem not_before_self (t : Slice) : before t t = false := by
  rw [before, sliceDiff, BitVec.sub_self]
  rfl

theorem newestSource_of_last {s : State} {q : PageRecord} {more : List PageRecord}
    (hpages : s.rings.mirror.pages = more ++ [q]) : s.rings.newestSource = some q.source := by
  rw [Rings.newestSource, hpages, List.getLast?_concat]

theorem handover_of_last {s : State} {q : PageRecord} {more : List PageRecord}
    (hpages : s.rings.mirror.pages = more ++ [q]) : s.handover = { s with rings := { s.rings with
      mirror := { s.rings.mirror with pages := more, nextPlace := q.place }
      runs := loseLast s.rings.runs } } := by
  unfold State.handover
  rw [hpages, List.getLast?_concat]
  simp only [List.dropLast_concat]
  rfl

theorem loseLast_concat (us : List Run) (u : Run) : loseLast (us ++ [u]) =
    if u.first = u.last then us else us ++ [{ u with last := u.last - 1 }] := by
  induction us with
  | nil => rfl
  | cons v us ih =>
    have hstep : loseLast (v :: (us ++ [u])) = v :: loseLast (us ++ [u]) := by
      cases us <;> rfl
    rw [List.cons_append, hstep, ih]
    split <;> rfl

/-- A page of the newest slice from another source takes the newest page's place (R109). -/
theorem beginMirror_handover {s : State} {p : MirrorPage} {q : PageRecord} {more : List PageRecord}
    (hpages : s.rings.mirror.pages = more ++ [q]) (hhigh : s.rings.mirror.high = some p.slice)
    (hsource : q.source ≠ p.source) : s.beginMirror p = ({ s with rings := { s.rings with
      mirror := { s.rings.mirror with pages := more, nextPlace := q.place }
      runs := loseLast s.rings.runs } } : State).makeRoomMirror := by
  have hother : ¬ s.rings.newestSource = some p.source := by
    rw [newestSource_of_last hpages]
    exact fun h => hsource (Option.some.inj h)
  unfold State.beginMirror
  simp only [hhigh, not_before_self, if_neg hother, handover_of_last hpages]
  rfl

theorem beginMirror_restarted {s : State} {p : MirrorPage} {h : Slice}
    (hhigh : s.rings.mirror.high = some h) (hback : before p.slice h = true ∨
      (p.slice = h ∧ ∃ q more, s.rings.mirror.pages = more ++ [q] ∧ q.source = p.source)) :
    s.beginMirror p = ({ s with rings := { s.rings with mirror := Ring.empty, runs := [] } }).raise .rings
      .ringRestarted 1 3 := by
  have hheld : s.rings.mirror.held = true := by
    rw [Ring.held, hhigh, Option.isSome_some, Bool.or_true]
  have hrestart : s.restartMirror causeBackwardMirror =
      ({ s with rings := { s.rings with mirror := Ring.empty, runs := [] } }).raise .rings
        .ringRestarted 1 3 := by
    unfold State.restartMirror
    exact if_pos hheld
  have hempty : (s.restartMirror causeBackwardMirror).makeRoomMirror =
      s.restartMirror causeBackwardMirror := by
    rw [hrestart]
    unfold State.makeRoomMirror
    split <;> rfl
  rw [← hrestart, ← hempty]
  unfold State.beginMirror
  obtain hbefore | ⟨hsame, q, more, hpages, hsource⟩ := hback
  · simp only [hhigh, hbefore, if_true]
  · have hnewest : s.rings.newestSource = some p.source := by rw [newestSource_of_last hpages, hsource]
    simp only [hhigh, hsame, not_before_self, if_pos hnewest, if_true]
    rfl

theorem makeRoomMirror_of_room {s : State} (hroom : s.rings.mirror.pages.length < s.mirrorCap) :
    s.makeRoomMirror = s := if_pos hroom

theorem makeRoomMirror_of_full {s : State} {q : PageRecord} {more : List PageRecord}
    (hpages : s.rings.mirror.pages = q :: more) (hfull : s.mirrorCap ≤ s.rings.mirror.pages.length) :
    s.makeRoomMirror = ({ s with rings := { s.rings with
      mirror := { s.rings.mirror with pages := more }, runs := loseFirst s.rings.runs } } : State).judge q := by
  unfold State.makeRoomMirror
  rw [if_neg (Nat.not_lt.mpr hfull), hpages]
  rfl

end Sys2Proof.Machine
end


section
/-! SUPPORT. The release of ST_WAIT, claimant by claimant (R126, R131). -/

namespace Sys2Proof.Machine

/-- The line is released. -/
def State.released (s : State) : State := { s with stWait := false }

theorem exec_stWaitReleased {s : State} (hreset : s.resetN = true) :
    exec .stWaitReleased s = .next s.released.finish := by
  change Host.Outcome.next _ = _
  rw [whenRunning_high (by exact hreset)]
  rfl

theorem finish_of_grant {s t : State} (hgrant : s.grant = t) (hraised : t.raised = []) : s.finish = t := by
  rw [State.finish, hgrant, settleNotices_none t hraised]

/-- The notices of a command that raises at most one. -/
theorem settleNotices_if {s : State} {c : Prop} [Decidable c] {r : Raised}
    (hraised : s.raised = if c then [r] else []) : s.settleNotices.notices =
      if c then s.notices.join s.windowInFlight r.notice else s.notices := by
  by_cases hc : c
  · rw [if_pos hc] at hraised ⊢
    rw [settleNotices_one s r hraised]
  · rw [if_neg hc] at hraised ⊢
    rw [settleNotices_none s hraised]

theorem discardMirror_of_cons {s : State} {p : MirrorPage} {rest : List MirrorPage}
    (h : s.store.mirror = p :: rest) : s.discardMirror = s.withStore { s.store with mirror := rest } := by
  rw [State.discardMirror, h]
  rfl

/-- The release with an operation in progress, in PAUSE or in reset. -/
theorem stWaitReleased_alone {s : State} (hraised : s.raised = [])
    (h : s.store.op ≠ none ∨ s.store.phase = .pause ∨ s.resetN = false) :
    exec .stWaitReleased s = .next s.released := by
  by_cases hreset : s.resetN = true
  · rw [exec_stWaitReleased hreset]
    by_cases hop : s.store.op = none
    · have hpause : s.store.phase = .pause :=
        (h.resolve_left fun hne => hne hop).resolve_right fun hlow => nomatch hreset.symm.trans hlow
      rw [finish_of_grant (grant_of_pause (s := s.released) hop rfl hpause) hraised]
    · rw [finish_of_waiting (s := s.released) hraised (.inl hop)]
  · change Host.Outcome.next _ = _
    rw [whenRunning_low (by exact Bool.eq_false_iff.mpr hreset)]
    rfl

section Release

variable {s : State} (hreset : s.resetN = true) (hraised : s.raised = []) (hs : s.released.Serving)

include hreset hraised hs

/-! ### A capture page (R103, R105, R106) -/

section Capture

variable {p : OwnPage} {rest : List OwnPage} (hcapture : s.store.capture = p :: rest)

include hcapture

theorem release_capture_begun {w : PageWrite} (hw : s.store.captureWrite = some w) :
    exec .stWaitReleased s = .next { s with
      stWait := false
      store := { s.store with op := some (.writeSlot .capture w.place w.lane
        (slotBytes p.slice s.control.id w.lane (p.slots.getD w.lane.val none) p.flagsByte) true) } } := by
  have hclaim : s.released.store.captureClaim = some p :=
    captureClaim_of_staged hcapture (.inl fun h => nomatch hw.symm.trans h)
  have hgrant : s.released.grant = s.released.grantCapture p := grantFrom_of_capture (n := 1299) hs hclaim
  rw [grantCapture_begun (s := s.released) p hw] at hgrant
  rw [exec_stWaitReleased hreset, finish_of_grant hgrant hraised]
  rfl

variable (hw : s.store.captureWrite = none) (hsettled : p.outcome ≠ .awaiting)

include hw hsettled

omit hreset hraised in
theorem release_capture_grant : s.released.grant = (s.released.beginOwn p).withStore { s.store with
    captureWrite := some { place := (s.released.beginOwn p).rings.own.nextPlace, lane := 0 }
    op := some (.writeSlot .capture (s.released.beginOwn p).rings.own.nextPlace 0
      (s.released.captureSlot p 0) true) } := by
  have hclaim : s.released.store.captureClaim = some p :=
    captureClaim_of_staged hcapture (.inr hsettled)
  have hgrant : s.released.grant = s.released.grantCapture p := grantFrom_of_capture (n := 1299) hs hclaim
  rw [hgrant, grantCapture_first (s := s.released) p hw]
  rfl

theorem release_capture_room (hroom : s.rings.own.pages.length < s.ownCap)
    (hhigh : ∀ h, s.rings.own.high = some h → before h p.slice = true) :
    exec .stWaitReleased s = .next { s with
      stWait := false
      store := { s.store with
        captureWrite := some { place := s.rings.own.nextPlace, lane := 0 }
        op := some (.writeSlot .capture s.rings.own.nextPlace 0
          (slotBytes p.slice s.control.id 0 (p.slots.getD 0 none) p.flagsByte) true) } } := by
  have hgrant := release_capture_grant hs hcapture hw hsettled
  rw [beginOwn_kept (s := s.released) hhigh, makeRoomOwn_of_room (s := s.released) hroom] at hgrant
  rw [exec_stWaitReleased hreset, finish_of_grant hgrant hraised]
  rfl

theorem release_capture_backward {h : Slice} (hhigh : s.rings.own.high = some h)
    (hbefore : before h p.slice = false) :
    exec .stWaitReleased s = .next { s with
      stWait := false
      rings := { s.rings with own := Ring.empty }
      store := { s.store with
        captureWrite := some { place := 0, lane := 0 }
        op := some (.writeSlot .capture 0 0
          (slotBytes p.slice s.control.id 0 (p.slots.getD 0 none) p.flagsByte) true) }
      notices := (s.notices.join s.windowInFlight
        { kind := .ringRestarted, slice := s.clock.index, subject := 0, detail := 2 }) } := by
  have hgrant := release_capture_grant hs hcapture hw hsettled
  rw [beginOwn_restarted (s := s.released) hhigh hbefore] at hgrant
  rw [exec_stWaitReleased hreset, State.finish, hgrant]
  exact congrArg Host.Outcome.next (settleNotices_raise (s := { s with
    stWait := false
    rings := { s.rings with own := Ring.empty }
    store := { s.store with
      captureWrite := some { place := 0, lane := 0 }
      op := some (.writeSlot .capture 0 0
        (slotBytes p.slice s.control.id 0 (p.slots.getD 0 none) p.flagsByte) true) } })
    hraised .rings .ringRestarted 0 2)

theorem release_capture_full {q : PageRecord} {more : List PageRecord}
    (hpages : s.rings.own.pages = q :: more) (hfull : s.ownCap ≤ s.rings.own.pages.length)
    (hhigh : ∀ h, s.rings.own.high = some h → before h p.slice = true) :
    ∃ t, exec .stWaitReleased s = .next t ∧
      t.rings.own = { s.rings.own with pages := more } ∧
      t.rings.unarchived = s.rings.unarchived +
        (if s.rings.unarchivedSlice q.source q.slice then 1 else 0) ∧
      t.rings.armed = (if s.rings.unarchivedSlice q.source q.slice then
        put s.rings.armed q.source false else s.rings.armed) ∧
      t.notices = (if s.rings.unarchivedSlice q.source q.slice = true ∧
          look s.rings.armed q.source = true then
        s.notices.join s.windowInFlight
          { kind := .unarchivedOverwrite, slice := s.clock.index
            subject := byte q.source.val, detail := sliceDetail q.slice }
        else s.notices) ∧
      t.store = { s.store with
        captureWrite := some { place := s.rings.own.nextPlace, lane := 0 }
        op := some (.writeSlot .capture s.rings.own.nextPlace 0
          (slotBytes p.slice s.control.id 0 (p.slots.getD 0 none) p.flagsByte) true) } := by
  have hgrant := release_capture_grant hs hcapture hw hsettled
  rw [beginOwn_kept (s := s.released) hhigh, makeRoomOwn_of_full (s := s.released) hpages hfull,
    judge_eq] at hgrant
  refine ⟨_, by rw [exec_stWaitReleased hreset, State.finish, hgrant], rfl, rfl, rfl, ?_, rfl⟩
  refine settleNotices_if (c := s.rings.unarchivedSlice q.source q.slice = true ∧
    look s.rings.armed q.source = true) (r := { raiser := .rings, notice := _ }) ?_
  change (if _ then s.raised ++ _ else s.raised) = _
  rw [hraised]
  rfl

end Capture

/-! ### A mirror page (R103, R109 to R111, R135) -/

section Mirror

variable (hawaiting : s.released.store.captureClaim = none) {p : MirrorPage} {rest : List MirrorPage}
  (hmirror : s.store.mirror = p :: rest)

include hawaiting hmirror

theorem release_mirror_begun {w : PageWrite} (hw : s.store.mirrorWrite = some w) :
    exec .stWaitReleased s = .next { s with
      stWait := false
      store := { s.store with op := some (.writeSlot .mirror (s.ownCap + w.place) w.lane
        (slotBytes p.slice p.source w.lane (p.slots.getD w.lane.val none) 0) true) } } := by
  have hgrant : s.released.grant = s.released.grantMirror p :=
    grantFrom_of_mirror (n := 1299) hs hawaiting hmirror (.inl fun h => nomatch hw.symm.trans h)
  rw [grantMirror_begun (s := s.released) p hw] at hgrant
  rw [exec_stWaitReleased hreset, finish_of_grant hgrant hraised]
  rfl

variable (hw : s.store.mirrorWrite = none)

include hw

/-- With no mirror ring the staged pages are discarded, and a routine refresh may follow (R135). -/
theorem release_mirror_discarded (hcap : s.mirrorCap = 0) (hrest : rest.length ≤ 1)
    (hclaim : s.server.claim = none) : exec .stWaitReleased s = .next { s with
      stWait := false
      store := { s.store with
        mirror := [], op := if 1 ≤ s.store.debt then some .refresh else none
        debt := s.store.debt - 1 } } := by
  have hserving (m : List MirrorPage) :
      (s.released.withStore { s.store with mirror := m }).Serving :=
    ⟨hs.idle, hs.released, hs.ready, hs.calm⟩
  have hone : s.released.grant = (s.released.withStore { s.store with mirror := rest }).grantFrom 1299 := by
    have hleft : s.released.discardMirror = s.released.withStore { s.store with mirror := rest } :=
      discardMirror_of_cons hmirror
    rw [← hleft]
    exact grantFrom_of_discard (n := 1299) hs hawaiting hmirror hw hcap
  have hgrant : s.released.grant = s.released.withStore { s.store with
        mirror := [], op := if 1 ≤ s.store.debt then some .refresh else none
        debt := s.store.debt - 1 } := by
    cases rest with
    | nil => exact hone.trans (grantFrom_of_routine (n := 1298) (hserving []) hawaiting rfl hclaim)
    | cons x more =>
      have hnil : more = [] := List.length_eq_zero_iff.mp (by rw [List.length_cons] at hrest; omega)
      subst hnil
      have htwo := grantFrom_of_discard (n := 1298) (hserving [x]) hawaiting rfl hw hcap
      rw [discardMirror_of_cons rfl] at htwo
      exact hone.trans (htwo.trans
        (grantFrom_of_routine (n := 1297) (hserving []) hawaiting rfl hclaim))
  rw [exec_stWaitReleased hreset, finish_of_grant hgrant hraised]
  rfl

variable (hcap : 0 < s.mirrorCap)

include hcap

omit hreset hraised in
theorem release_mirror_grant : s.released.grant = (s.released.beginMirror p).withStore { s.store with
    mirrorWrite := some { place := (s.released.beginMirror p).rings.mirror.nextPlace, lane := 0 }
    op := some (.writeSlot .mirror (s.ownCap + (s.released.beginMirror p).rings.mirror.nextPlace) 0
      (mirrorSlot p 0) true) } := by
  have hgrant : s.released.grant = s.released.grantMirror p :=
    grantFrom_of_mirror (n := 1299) hs hawaiting hmirror (.inr hcap)
  rw [hgrant, grantMirror_first (s := s.released) p hw]
  rfl

theorem release_mirror_room (hroom : s.rings.mirror.pages.length < s.mirrorCap)
    (hhigh : ∀ h, s.rings.mirror.high = some h → p.slice ≠ h ∧ before p.slice h = false) :
    exec .stWaitReleased s = .next { s with
      stWait := false
      store := { s.store with
        mirrorWrite := some { place := s.rings.mirror.nextPlace, lane := 0 }
        op := some (.writeSlot .mirror (s.ownCap + s.rings.mirror.nextPlace) 0
          (slotBytes p.slice p.source 0 (p.slots.getD 0 none) 0) true) } } := by
  have hgrant := release_mirror_grant hs hawaiting hmirror hw hcap
  rw [beginMirror_kept (s := s.released) hhigh, makeRoomMirror_of_room (s := s.released) hroom] at hgrant
  rw [exec_stWaitReleased hreset, finish_of_grant hgrant hraised]
  rfl

omit hraised in
theorem release_mirror_full {q : PageRecord} {more : List PageRecord}
    (hpages : s.rings.mirror.pages = q :: more) (hfull : s.mirrorCap ≤ s.rings.mirror.pages.length)
    (hhigh : ∀ h, s.rings.mirror.high = some h → p.slice ≠ h ∧ before p.slice h = false) :
    ∃ t, exec .stWaitReleased s = .next t ∧
      t.rings.mirror = { s.rings.mirror with pages := more } ∧
      t.rings.runs = loseFirst s.rings.runs ∧
      t.store.mirrorWrite = some { place := s.rings.mirror.nextPlace, lane := 0 } := by
  have hgrant := release_mirror_grant hs hawaiting hmirror hw hcap
  rw [beginMirror_kept (s := s.released) hhigh, makeRoomMirror_of_full (s := s.released) hpages hfull,
    judge_eq] at hgrant
  exact ⟨_, by rw [exec_stWaitReleased hreset, State.finish, hgrant], rfl, rfl, rfl⟩

omit hraised in
theorem release_mirror_handover {q : PageRecord} {more : List PageRecord}
    (hpages : s.rings.mirror.pages = more ++ [q]) (hhigh : s.rings.mirror.high = some p.slice)
    (hsource : q.source ≠ p.source) (hroom : more.length < s.mirrorCap) :
    ∃ t, exec .stWaitReleased s = .next t ∧
      t.rings.mirror = { s.rings.mirror with pages := more, nextPlace := q.place } ∧
      t.rings.runs = loseLast s.rings.runs ∧
      t.store.mirrorWrite = some { place := q.place, lane := 0 } := by
  have hgrant := release_mirror_grant hs hawaiting hmirror hw hcap
  rw [beginMirror_handover (s := s.released) hpages hhigh hsource,
    makeRoomMirror_of_room (by exact hroom)] at hgrant
  exact ⟨_, by rw [exec_stWaitReleased hreset, State.finish, hgrant], rfl, rfl, rfl⟩

theorem release_mirror_backward {h : Slice} (hhigh : s.rings.mirror.high = some h)
    (hback : before p.slice h = true ∨
      (p.slice = h ∧ ∃ q more, s.rings.mirror.pages = more ++ [q] ∧ q.source = p.source)) :
    exec .stWaitReleased s = .next { s with
      stWait := false
      rings := { s.rings with mirror := Ring.empty, runs := [] }
      store := { s.store with
        mirrorWrite := some { place := 0, lane := 0 }
        op := some (.writeSlot .mirror s.ownCap 0
          (slotBytes p.slice p.source 0 (p.slots.getD 0 none) 0) true) }
      notices := (s.notices.join s.windowInFlight
        { kind := .ringRestarted, slice := s.clock.index, subject := 1, detail := 3 }) } := by
  have hgrant := release_mirror_grant hs hawaiting hmirror hw hcap
  rw [beginMirror_restarted (s := s.released) hhigh hback] at hgrant
  rw [exec_stWaitReleased hreset, State.finish, hgrant]
  exact congrArg Host.Outcome.next (settleNotices_raise (s := { s with
    stWait := false
    rings := { s.rings with mirror := Ring.empty, runs := [] }
    store := { s.store with
      mirrorWrite := some { place := 0, lane := 0 }
      op := some (.writeSlot .mirror s.ownCap 0
        (slotBytes p.slice p.source 0 (p.slots.getD 0 none) 0) true) } })
    hraised .rings .ringRestarted 1 3)

end Mirror

/-! ### A read (R133) -/

theorem release_read (hawaiting : s.released.store.captureClaim = none) (hmirror : s.store.mirror = [])
    {c : Claim} {pos : ReadPos} {r : PageRecord} (hclaim : s.server.claim = some c)
    (hpos : s.server.pos = some pos) (hheld : s.lookup c.source c.slice c.lane = .held r) :
    exec .stWaitReleased s = .next { s with
      stWait := false
      store := { s.store with op := some (.readSlot c
        (if c.source = s.control.id then r.place else s.ownCap + r.place)) }
      server := { s.server with
        claim := none, inFlight := some { pos := pos, discard := false } } } := by
  have hgrant : s.released.grant = s.released.grantRead c r pos :=
    grantFrom_of_read (n := 1299) hs hawaiting hmirror hclaim hpos hheld
  have hpage : s.storePage (s.ringOf c.source) r.place =
      if c.source = s.control.id then r.place else s.ownCap + r.place := by
    unfold State.ringOf
    split <;> rfl
  rw [exec_stWaitReleased hreset, finish_of_grant hgrant hraised, ← hpage]
  rfl

end Release

/-- Settles O31: the claimants in the order of R131. -/
theorem stWaitReleasedStartsRefresh : Obligations.StWaitReleasedStartsRefresh := by
  refine ⟨fun s hreset hop hready hraised hdebt => ?_, fun s hraised h => stWaitReleased_alone hraised h,
    fun s hreset hop hinit hraised => ?_, fun p rest s hreset hop hready hraised hcalm hcapture => ?_,
    fun p rest s hreset hop hready hraised hcalm hcw hawaiting hmirror => ?_,
    fun c pos r s hreset hop hready hraised hcalm hcw hawaiting hmirror hclaim hpos hheld => ?_⟩
  · have hgrant : s.released.grant = s.released.withStore { s.store with
        op := some .refresh, debt := s.store.debt - 1 } := by
      by_cases hurgent : 6 ≤ s.store.debt
      · exact grant_of_urgent (s := s.released) hop rfl hready hurgent
      · obtain ⟨hone, hcapture, hmirror, hclaim⟩ := hdebt.resolve_left hurgent
        have hroutine : s.released.grant = _ := grantFrom_of_routine (s := s.released) (n := 1299)
          ⟨hop, rfl, hready, Nat.not_le.mp hurgent⟩ (captureClaim_of_empty hcapture) hmirror hclaim
        rw [hroutine, if_pos (by exact hone)]
        rfl
    rw [exec_stWaitReleased hreset, finish_of_grant hgrant hraised]
    rfl
  · rw [exec_stWaitReleased hreset, finish_of_grant (grant_of_init (s := s.released) hop rfl hinit) hraised]
    rfl
  · have hs : s.released.Serving := ⟨hop, rfl, hready, hcalm⟩
    exact ⟨fun w hw => release_capture_begun hreset hraised hs hcapture hw, fun hw hsettled =>
      ⟨release_capture_room hreset hraised hs hcapture hw hsettled,
        fun q more => release_capture_full hreset hraised hs hcapture hw hsettled,
        fun h => release_capture_backward hreset hraised hs hcapture hw hsettled⟩⟩
  · have hs : s.released.Serving := ⟨hop, rfl, hready, hcalm⟩
    have hnone : s.released.store.captureClaim = none := captureClaim_of_awaiting hcw hawaiting
    refine ⟨fun w hw => release_mirror_begun hreset hraised hs hnone hmirror hw, fun hw hcap =>
      ⟨release_mirror_room hreset hraised hs hnone hmirror hw hcap, fun q more hpages hfull hhigh => ?_,
        fun q more hpages hhigh hsource hroom => ?_,
        fun h => release_mirror_backward hreset hraised hs hnone hmirror hw hcap⟩,
      fun hw hcap => release_mirror_discarded hreset hraised hs hnone hmirror hw hcap⟩
    · obtain ⟨t, hexec, hring, hruns, hwrite⟩ :=
        release_mirror_full hreset hs hnone hmirror hw hcap hpages hfull hhigh
      exact ⟨t, hexec, hring, fun u us h => by rw [hruns, h]; rfl, hwrite⟩
    · obtain ⟨t, hexec, hring, hruns, hwrite⟩ :=
        release_mirror_handover hreset hs hnone hmirror hw hcap hpages hhigh hsource hroom
      exact ⟨t, hexec, hring, fun us u h => by rw [hruns, h, loseLast_concat], hwrite⟩
  · exact release_read hreset hraised ⟨hop, rfl, hready, hcalm⟩ (captureClaim_of_awaiting hcw hawaiting)
      hmirror hclaim hpos hheld

end Sys2Proof.Machine
end


section
/-! SUPPORT. Refresh ticks, the start-up of the store, and the grant with nothing staged (R123, R128 to
R131, R133). -/

namespace Sys2Proof.Machine

/-! ### The grant with nothing staged -/

/-- Only the operation in progress, the debt and the recall service differ. -/
def OnlyServed (s t : State) : Prop := ∃ op debt v,
  t = { s with store := { s.store with op := op, debt := debt }, server := v }

theorem OnlyServed.refl (s : State) : OnlyServed s s := ⟨_, _, _, rfl⟩

theorem OnlyServed.trans {s t u : State} : OnlyServed s t → OnlyServed t u → OnlyServed s u := by
  rintro ⟨_, _, _, rfl⟩ ⟨_, _, _, rfl⟩; exact ⟨_, _, _, rfl⟩

theorem answerClaim_onlyServer (s : State) (f : Lookup) : OnlyServer s (s.answerClaim f) := by
  have produced (u : State) : OnlyServer u (u.produceLookup f) := by
    unfold State.produceLookup
    split
    · exact ⟨_, rfl⟩
    · split <;> exact ⟨_, rfl⟩
  obtain ⟨_, h⟩ := produced (s.withServer { s.server with claim := none })
  rw [State.answerClaim, h]
  exact ⟨_, rfl⟩

/-- With nothing staged the grant reaches neither the rings nor the page writes, and raises nothing. -/
theorem grantFrom_unstaged (n : Nat) {s : State} (hcapture : s.store.capture = [])
    (hmirror : s.store.mirror = []) : OnlyServed s (s.grantFrom n) := by
  have refreshed (u : State) : OnlyServed u (u.withStore u.store.startRefresh) := ⟨_, _, _, rfl⟩
  induction n generalizing s with
  | zero => exact .refl s
  | succ n ih =>
    have answered (f : Lookup) : OnlyServed s ((s.answerClaim f).grantFrom n) := by
      obtain ⟨v, h⟩ := answerClaim_onlyServer s f
      exact .trans ⟨_, _, v, h⟩ (ih (by rw [h]; exact hcapture) (by rw [h]; exact hmirror))
    unfold State.grantFrom
    split
    · exact .refl s
    · split
      · exact .refl s
      · exact refreshed s
      · split
        · exact refreshed s
        · rw [captureClaim_of_empty hcapture, hmirror]
          dsimp only
          split
          · split
            · exact ⟨_, _, _, rfl⟩
            all_goals exact answered _
          · split
            · exact refreshed s
            · exact .refl s

theorem grant_unstaged {s : State} (hcapture : s.store.capture = []) (hmirror : s.store.mirror = []) :
    OnlyServed s s.grant := grantFrom_unstaged _ hcapture hmirror

/-- Without a debt the grant makes none. -/
theorem grant_debt {s : State} (hdebt : s.store.debt = 0) : s.grant.store.debt = 0 := by
  refine grantFrom_relates (P := fun s t => s.store.debt = 0 → t.store.debt = 0) (fun _ h => h)
    (fun f g h => g (f h)) (fun u _ hu => ?_) (fun u p hu => ?_) (fun u p hu => ?_) (fun _ h => h)
    (fun _ _ _ _ _ h => h) (fun u f c _ hu => ?_) _ s hdebt
  · change (if _ then u.store.debt - 1 else u.store.debt) = 0
    rw [hu, Nat.zero_sub, ite_self]
  · cases hw : u.store.captureWrite with
    | some w => rw [grantCapture_begun p hw]; exact hu
    | none => rw [grantCapture_first p hw]; exact hu
  · cases hw : u.store.mirrorWrite with
    | some w => rw [grantMirror_begun p hw]; exact hu
    | none => rw [grantMirror_first p hw]; exact hu
  · obtain ⟨v, h⟩ := answerClaim_onlyServer u f
    rw [h]
    exact hu

/-- Where the store takes no staged page, the notices raised join in their order. -/
theorem finish_notices_one {s : State} {r : Raised} (hraised : s.raised = [r])
    (hquiet : s.stWait = true ∨ (s.store.capture = [] ∧ s.store.mirror = [])) :
    s.finish.notices = s.notices.join s.windowInFlight r.notice := by
  obtain hwait | ⟨hcapture, hmirror⟩ := hquiet
  · rw [State.finish, grant_held s hwait, settleNotices_one s r hraised]
  · obtain ⟨op, debt, v, h⟩ := grant_unstaged hcapture hmirror
    rw [State.finish, h, settleNotices_one _ r (by exact hraised)]
    rfl

/-- The store waits: the command's end leaves what it made of the store. -/
theorem finish_withStore_of_waiting {s : State} {x : Store} (hraised : s.raised = [])
    (hwaits : x.op ≠ none ∨ s.stWait = true) : (s.withStore x).finish = { s with store := x } :=
  finish_of_waiting (s := s.withStore x) hraised hwaits

/-- An idle store in INIT_REFRESH begins a refresh at the command's end. -/
theorem finish_withStore_of_init {s : State} {x : Store} (hraised : s.raised = []) (hop : x.op = none)
    (hreleased : s.stWait = false) (hphase : x.phase = .initRefresh) :
    (s.withStore x).finish = { s with store := { x with op := some .refresh } } :=
  finish_of_grant (grant_of_init (s := s.withStore x) hop hreleased hphase) hraised

/-! ### Refresh ticks (R129) -/

theorem exec_refreshTick {s : State} (hreset : s.resetN = true) :
    exec .refreshTick s = .next s.refreshTick.finish := by
  change Host.Outcome.next _ = _
  rw [whenRunning_high hreset]

theorem refreshTick_of_ready {s : State} (hready : s.store.phase = .ready) (hdebt : s.store.debt < 8) :
    s.refreshTick = s.withStore { s.store with
      ticks := s.store.ticks + 1, debt := s.store.debt + 1
      peak := max s.store.peak (s.store.debt + 1) } := by
  have hpeak : (if s.store.peak < s.store.debt + 1 then s.store.debt + 1 else s.store.peak) =
      max s.store.peak (s.store.debt + 1) := by
    split <;> omega
  unfold State.refreshTick
  rw [if_pos hready, if_neg (by omega), Store.tick, hpeak]

theorem refreshTick_of_notReady {s : State} (hnot : s.store.phase ≠ .ready) : s.refreshTick = s :=
  if_neg hnot

/-- Settles O33: a tick of a waiting store, of an idle one that refreshes at once, and outside READY. -/
theorem refreshTickRaisesDebt : Obligations.RefreshTickRaisesDebt := by
  refine ⟨fun s hreset hready hdebt hwaits hraised => ?_,
    fun s hreset hready hdebt hop hwait hraised hfirst => ?_,
    fun s hnot hwaits hraised => ?_⟩
  · rw [exec_refreshTick hreset, refreshTick_of_ready hready hdebt,
      finish_of_waiting (by exact hraised) (by exact hwaits)]
    rfl
  · have hgrant : s.refreshTick.grant = s.withStore { s.store with
        ticks := s.store.ticks + 1, op := some .refresh
        peak := max s.store.peak (s.store.debt + 1) } := by
      rw [refreshTick_of_ready hready hdebt]
      by_cases hurgent : 5 ≤ s.store.debt
      · exact grant_of_urgent hop hwait hready (Nat.succ_le_succ hurgent)
      · obtain ⟨hcapture, hmirror, hclaim⟩ := hfirst.resolve_left hurgent
        have hroutine := grantFrom_of_routine (n := 1299)
          (s := s.withStore { s.store with
            ticks := s.store.ticks + 1, debt := s.store.debt + 1
            peak := max s.store.peak (s.store.debt + 1) })
          ⟨hop, hwait, hready, Nat.succ_lt_succ (Nat.not_le.mp hurgent)⟩
          (captureClaim_of_empty hcapture) hmirror hclaim
        rw [if_pos (by exact Nat.succ_le_succ (Nat.zero_le _))] at hroutine
        exact hroutine
    rw [exec_refreshTick hreset, finish_of_grant hgrant hraised]
    rfl
  · refine next_whenRunning_self ?_
    rw [refreshTick_of_notReady hnot, finish_of_waiting hraised hwaits]

/-! ### Start-up (R123, R128) -/

theorem exec_pauseEnd {s : State} (hreset : s.resetN = true) :
    exec .pauseEnd s = .next s.pauseEnd.finish := by
  change Host.Outcome.next _ = _
  rw [whenRunning_high hreset]

theorem exec_refreshEnd {s : State} (hreset : s.resetN = true) :
    exec .refreshEnd s = .next s.refreshEnd.finish := by
  change Host.Outcome.next _ = _
  rw [whenRunning_high hreset]

/-- The operation of an idle store in INIT_REFRESH at the end of a command. -/
theorem finish_op_of_init {s : State} (hop : s.store.op = none) (hphase : s.store.phase = .initRefresh) :
    s.finish.store.op = if s.stWait then none else some .refresh := by
  cases hwait : s.stWait with
  | true => rw [State.finish, grant_held s hwait, settleNotices_store, hop]; rfl
  | false => rw [State.finish, grant_of_init hop hwait hphase, settleNotices_store]; rfl

/-- The refresh ends, with what is left of it besides the start-up. -/
def State.refreshed (s : State) : State :=
  s.withStore { s.store with op := none, row := s.store.row + 1 }

theorem byte_ite (b : Bool) : byte (if b then 1 else 0) = if b then 1 else 0 := by
  cases b <;> rfl

theorem enterReady_seen (s : State) : ∃ st r, s.enterReady = { s with
    store := st, control := { s.control with storeSeen := true }, raised := r } := ⟨_, _, rfl⟩

theorem refreshEnd_seen (s : State) : ∃ st x r, s.refreshEnd = { s with
    store := st, control := { s.control with storeSeen := x }, raised := r } := by
  unfold State.refreshEnd
  dsimp only
  split
  · split
    · split
      · obtain ⟨_, _, h⟩ := enterReady_seen
          (s.withStore { s.store with op := none, row := s.store.row + 1 })
        rw [h]
        exact ⟨_, true, _, rfl⟩
      · exact ⟨_, s.control.storeSeen, _, rfl⟩
    · exact ⟨_, s.control.storeSeen, _, rfl⟩
  · exact ⟨_, s.control.storeSeen, _, rfl⟩

section RefreshEnd

variable {s : State} (hop : s.store.op = some .refresh)

include hop

theorem refreshEnd_of_eighth (hinit : s.store.phase = .initRefresh) (hdone : s.store.initDone = 7) :
    s.refreshEnd = s.refreshed.enterReady := by
  unfold State.refreshEnd
  rw [if_pos hop, if_pos hinit]
  exact if_pos (by rw [hdone])

theorem refreshEnd_of_earlier (hinit : s.store.phase = .initRefresh) (hdone : s.store.initDone < 7) :
    s.refreshEnd = s.refreshed.withStore { s.refreshed.store with initDone := s.store.initDone + 1 } := by
  unfold State.refreshEnd
  rw [if_pos hop, if_pos hinit]
  exact if_neg (by omega)

theorem refreshEnd_row : s.refreshEnd.store.row = s.store.row + 1 := by
  unfold State.refreshEnd
  rw [if_pos hop]
  dsimp only
  split
  · split <;> rfl
  · rfl

end RefreshEnd

theorem enterReady_raised {s : State} (hraised : s.raised = []) : s.refreshed.enterReady.raised =
    [{ raiser := .store, notice := {
        kind := .storeReady, slice := s.clock.index
        subject := if s.control.storeSeen then 1 else 0
        detail := BitVec.ofNat 16 s.store.reinits } }] := by
  change s.raised ++ [_] = _
  rw [hraised, List.nil_append, ← byte_ite]
  rfl

theorem enterReady_windowInFlight (s : State) :
    s.refreshed.enterReady.windowInFlight = s.windowInFlight := by
  unfold State.windowInFlight
  rfl

/-- Settles O32: PAUSE_END, and REFRESH_END in and after the start-up. -/
theorem storeStartsUp : Obligations.StoreStartsUp := by
  refine ⟨fun s hreset hpause hop hraised => ?_, fun s hreset hop => ⟨_, exec_refreshEnd hreset, ?_, ?_, ?_, ?_⟩⟩
  · have hended : s.pauseEnd = s.withStore { s.store with phase := .initRefresh, pauseTime := 4800 } :=
      if_pos hpause
    rw [exec_pauseEnd hreset, hended]
    by_cases hwait : s.stWait = true
    · rw [if_pos hwait, ← hop]
      exact congrArg Host.Outcome.next (finish_withStore_of_waiting hraised (.inr hwait))
    · rw [if_neg hwait]
      exact congrArg Host.Outcome.next
        (finish_withStore_of_init hraised hop (Bool.eq_false_iff.mpr hwait) rfl)
  · obtain ⟨-, -, hrow, -⟩ := finish_kept s.refreshEnd
    rw [hrow, refreshEnd_row hop]
  · intro hinit hdone
    obtain ⟨-, -, -, hphase, hticks, -⟩ := finish_kept s.refreshed.enterReady
    rw [refreshEnd_of_eighth hop hinit hdone, hphase, hticks, finish_control]
    refine ⟨rfl, rfl, grant_debt rfl, rfl, fun hraised hquiet => ?_⟩
    rw [finish_notices_one (enterReady_raised hraised) hquiet, enterReady_windowInFlight]
    rfl
  · intro hinit hdone
    obtain ⟨-, -, -, hphase, -, hinitDone, -⟩ := finish_kept s.refreshEnd
    rw [hphase, hinitDone, refreshEnd_of_earlier hop hinit hdone]
    exact ⟨hinit, rfl, finish_op_of_init rfl hinit⟩
  · have hrest := finish_rest s.refreshEnd
    have hcontrol := finish_control s.refreshEnd
    obtain ⟨st, x, r, hframe⟩ := refreshEnd_seen s
    generalize s.refreshEnd.finish = t at hrest hcontrol ⊢
    rw [hframe] at hrest hcontrol
    dsimp only at hrest hcontrol
    rw [hcontrol]
    exact hrest

end Sys2Proof.Machine
end


section
/-! SUPPORT. The end of a slot write: its bytes in the DRAM and its page's record (R103, R110, R112, R124). -/

namespace Sys2Proof.Machine

theorem exec_slotWriteEnd {kind : PageKind} {page : Nat} {lane : Lane} {bytes : List Byte} {live : Bool}
    {s : State} (hreset : s.resetN = true) (hop : s.store.op = some (.writeSlot kind page lane bytes live))
    (hpage : page < storePages s.control.sizeCode) :
    exec .slotWriteEnd s = .next (s.slotWritten kind page lane bytes live).finish := by
  have hexists : s.pageExists page = true := decide_eq_true hpage
  change execSlotWriteEnd s = _
  unfold execSlotWriteEnd
  simp only [hop, hexists, if_true]
  rw [whenRunning_high hreset]

/-- Settles O35, by the memory's rules for bytes written and bytes outside them. -/
theorem slotWriteStoresBytes : Obligations.SlotWriteStoresBytes := by
  intro kind page lane bytes live s hreset hop hpage hwf
  have hdram : (s.slotWritten kind page lane bytes live).finish.dram =
      Memory.writeBytes s.dram (slotAddress page lane) bytes := by
    rw [finish_dram, slotWritten_dram]
  refine ⟨_, exec_slotWriteEnd hreset hop hpage, fun i hi => ?_, fun a ha => ?_, rfl, ?_⟩
  · rw [hdram]
    exact Memory.read_writeBytes_inside s.dram _ i bytes hwf hi
  · rw [hdram]
    exact Memory.read_writeBytes_outside s.dram _ a bytes hwf ha
  · have hrest := finish_rest (s.slotWritten kind page lane bytes live)
    obtain ⟨_, _, _, _, hframe⟩ := advanceWrite_frame
      (({ s with dram := Memory.writeBytes s.dram (slotAddress page lane) bytes } : State).withStore
        { s.store with op := none }) kind live
    have hwritten : s.slotWritten kind page lane bytes live = _ := hframe
    generalize (s.slotWritten kind page lane bytes live).finish = t at hrest hdram ⊢
    rw [hwritten] at hrest
    rw [hdram]
    exact hrest

/-! ### A page's record (R103) -/

/-- A mask with a lane's bit set where the lane has no block. -/
def markAbsent (slots : List (Option Block)) (m : BitVec 8) (l : Lane) : BitVec 8 :=
  match slots.getD l.val none with
  | none => m ||| flagBit 8 true l.val
  | some _ => m

theorem absentMask_eq (slots : List (Option Block)) :
    absentMask slots = allLanes.foldl (markAbsent slots) 0 := rfl

theorem markAbsent_getLsbD (slots : List (Option Block)) (m : BitVec 8) (k l : Lane) :
    (markAbsent slots m k).getLsbD l.val =
      (m.getLsbD l.val || (decide (l = k) && (slots.getD l.val none).isNone)) := by
  have hbit : (flagBit 8 true k.val).getLsbD l.val = decide (l = k) := by
    simp only [flagBit, if_true, BitVec.getLsbD_twoPow, k.isLt, decide_true, Bool.true_and,
      Fin.ext_iff, eq_comm]
  unfold markAbsent
  by_cases hk : l = k
  · subst hk
    cases slots.getD l.val none with
    | none => simp [hbit]
    | some b => simp
  · cases slots.getD k.val none with
    | none => rw [BitVec.getLsbD_or, hbit, decide_eq_false hk, Bool.false_and]
    | some b => rw [decide_eq_false hk, Bool.false_and, Bool.or_false]

/-- The mask marks the lanes without a block. -/
theorem absentMask_getLsbD (slots : List (Option Block)) (l : Lane) :
    (absentMask slots).getLsbD l.val = (slots.getD l.val none).isNone := by
  have folded (ls : List Lane) (m : BitVec 8) : (ls.foldl (markAbsent slots) m).getLsbD l.val =
      (m.getLsbD l.val || (decide (l ∈ ls) && (slots.getD l.val none).isNone)) := by
    induction ls generalizing m with
    | nil => simp
    | cons k ls ih =>
      rw [List.foldl_cons, ih, markAbsent_getLsbD, Bool.or_assoc, ← Bool.and_or_distrib_right,
        ← Bool.decide_or]
      simp only [List.mem_cons]
  rw [absentMask_eq, folded, decide_eq_true (mem_allLanes l), Bool.true_and]
  exact Bool.or_eq_right_iff_imp.mpr fun h => absurd h (by simp)

/-- The record of an own page at a place. -/
def OwnPage.record (p : OwnPage) (k : StationId) (place : Nat) : PageRecord :=
  { slice := p.slice, source := k, absent := absentMask p.slots, stepped := p.stepped
    unsent := decide (p.outcome = .unsent), place := place }

theorem advanceCapture_last {s : State} {place : Nat} {p : OwnPage} {rest : List OwnPage}
    (hw : s.store.captureWrite = some { place := place, lane := 7 }) (hstaged : s.store.capture = p :: rest) :
    s.advanceCapture =
      (s.withStore { s.store with captureWrite := none, capture := rest }).completeOwn p place := by
  unfold State.advanceCapture
  simp only [hw, hstaged, if_true]

theorem advanceMirror_last {s : State} {place : Nat} {p : MirrorPage} {rest : List MirrorPage}
    (hw : s.store.mirrorWrite = some { place := place, lane := 7 }) (hstaged : s.store.mirror = p :: rest) :
    s.advanceMirror =
      (s.withStore { s.store with mirrorWrite := none, mirror := rest }).completeMirror p place := by
  unfold State.advanceMirror
  simp only [hw, hstaged, if_true]

/-! ### The run list (R110, R112) -/

/-- The page carries the run on. -/
def Run.Joins (u : Run) (p : MirrorPage) : Prop :=
  u.isOpen = true ∧ u.source = p.source ∧ u.last + 1 = p.slice

/-- The record of a mirror page at a place. -/
def MirrorPage.record (p : MirrorPage) (place : Nat) : PageRecord :=
  { slice := p.slice, source := p.source, absent := absentMask p.slots, stepped := false, unsent := false
    place := place }

/-- The run a page opens. -/
def MirrorPage.run (p : MirrorPage) : Run :=
  { source := p.source, first := p.slice, last := p.slice, isOpen := true }

theorem extendsOpen_iff (runs : List Run) (p : MirrorPage) :
    extendsOpen runs p.source p.slice = true ↔ ∃ u ∈ runs, u.Joins p := by
  simp only [extendsOpen, List.any_eq_true, decide_eq_true_eq, Run.Joins]

/-- Only the OPEN run is carried on. -/
theorem extendRuns_last {us : List Run} {u : Run} {p : MirrorPage} (hjoins : u.Joins p)
    (hclosed : ∀ x ∈ us, x.isOpen = false) :
    extendRuns (us ++ [u]) p.source p.slice = us ++ [{ u with last := p.slice }] := by
  have hkept : us.map (fun r : Run => if r.isOpen = true ∧ r.source = p.source ∧ r.last + 1 = p.slice then
      { r with last := p.slice } else r) = us := by
    refine (List.map_congr_left fun x hx => if_neg fun h => ?_).trans (List.map_id us)
    exact Bool.false_ne_true ((hclosed x hx).symm.trans h.1)
  rw [extendRuns, List.map_append, hkept, List.map_singleton]
  exact congrArg (us ++ [·]) (if_pos hjoins)

section Complete

variable {s : State} {p : MirrorPage} (place : Nat)

theorem completeMirror_joining (hjoins : ∃ u ∈ s.rings.runs, u.Joins p) :
    (s.completeMirror p place).rings = { s.rings with
      mirror := {
        pages := s.rings.mirror.pages ++ [p.record place], high := some p.slice
        nextPlace := (place + 1) % s.mirrorCap }
      runs := extendRuns s.rings.runs p.source p.slice } := by
  unfold State.completeMirror
  rw [if_pos ((extendsOpen_iff _ _).mpr hjoins)]
  rfl

variable (hnew : ∀ u ∈ s.rings.runs, ¬ u.Joins p)

include hnew

theorem completeMirror_opening (hroom : s.rings.runs.length < 4) :
    (s.completeMirror p place).rings = { s.rings with
      mirror := {
        pages := s.rings.mirror.pages ++ [p.record place], high := some p.slice
        nextPlace := (place + 1) % s.mirrorCap }
      runs := closeRuns s.rings.runs ++ [p.run] } := by
  have hnone : ¬ extendsOpen s.rings.runs p.source p.slice = true := fun h =>
    let ⟨u, hu, hjoins⟩ := (extendsOpen_iff _ _).mp h
    hnew u hu hjoins
  unfold State.completeMirror
  rw [if_neg hnone]
  dsimp only
  rw [if_pos (show s.rings.runs.length < Config.runCapacity from hroom)]
  rfl

theorem completeMirror_givingUp (hfull : 4 ≤ s.rings.runs.length) :
    (s.completeMirror p place).rings = { s.giveUpOldestRun.rings with
      mirror := {
        pages := s.giveUpOldestRun.rings.mirror.pages ++ [p.record place], high := some p.slice
        nextPlace := (place + 1) % s.mirrorCap }
      runs := closeRuns s.giveUpOldestRun.rings.runs ++ [p.run] } := by
  have hnone : ¬ extendsOpen s.rings.runs p.source p.slice = true := fun h =>
    let ⟨u, hu, hjoins⟩ := (extendsOpen_iff _ _).mp h
    hnew u hu hjoins
  unfold State.completeMirror
  rw [if_neg hnone]
  dsimp only
  rw [if_neg (show ¬ s.rings.runs.length < Config.runCapacity from Nat.not_lt.mpr hfull)]
  rfl

end Complete

theorem giveUpOldestRun_pages {s : State} {u : Run} {us : List Run} (hruns : s.rings.runs = u :: us) :
    s.giveUpOldestRun.rings.mirror.pages = s.rings.mirror.pages.dropWhile u.holds ∧
    s.giveUpOldestRun.rings.runs = us ∧ s.giveUpOldestRun.rings.own = s.rings.own := by
  unfold State.giveUpOldestRun
  rw [hruns]
  dsimp only
  obtain ⟨hown, hmirror, hkept⟩ := foldl_judge_rings (s.rings.mirror.pages.takeWhile u.holds)
    (s.withRings { s.rings with
      mirror := { s.rings.mirror with pages := s.rings.mirror.pages.dropWhile u.holds }, runs := us })
  exact ⟨by rw [hmirror]; rfl, by rw [hkept]; rfl, by rw [hown]; rfl⟩

section Runs

variable {s : State} {p : MirrorPage} (place : Nat)

/-- The page carries the OPEN run on. -/
theorem completeMirror_carried {us : List Run} {u : Run} (hruns : s.rings.runs = us ++ [u])
    (hjoins : u.Joins p) (hclosed : ∀ x ∈ us, x.isOpen = false) :
    (s.completeMirror p place).rings.mirror.pages = s.rings.mirror.pages ++ [p.record place] ∧
    (s.completeMirror p place).rings.runs = us ++ [{ u with last := p.slice }] := by
  rw [completeMirror_joining place ⟨u, by rw [hruns]; simp, hjoins⟩]
  exact ⟨rfl, by dsimp only; rw [hruns, extendRuns_last hjoins hclosed]⟩

/-- The page opens a run of its own. -/
theorem completeMirror_opened (hnew : ∀ u ∈ s.rings.runs, ¬ u.Joins p) (hroom : s.rings.runs.length < 4) :
    (s.completeMirror p place).rings.mirror.pages = s.rings.mirror.pages ++ [p.record place] ∧
    (s.completeMirror p place).rings.runs = closeRuns s.rings.runs ++ [p.run] := by
  rw [completeMirror_opening place hnew hroom]
  exact ⟨rfl, rfl⟩

/-- The page opens a run of its own in the place of the oldest of four. -/
theorem completeMirror_replaced {u : Run} {us : List Run} (hruns : s.rings.runs = u :: us)
    (hnew : ∀ x ∈ u :: us, ¬ x.Joins p) (hfull : 3 ≤ us.length) :
    (s.completeMirror p place).rings.mirror.pages =
      s.rings.mirror.pages.dropWhile u.holds ++ [p.record place] ∧
    (s.completeMirror p place).rings.runs = closeRuns us ++ [p.run] := by
  obtain ⟨hpages, hrest, -⟩ := giveUpOldestRun_pages hruns
  rw [completeMirror_givingUp place (by rw [hruns]; exact hnew)
    (by rw [hruns, List.length_cons]; omega), hpages, hrest]
  exact ⟨rfl, rfl⟩

end Runs

/-- What a mirror page's completion makes of the own ring and the mirror ring's high mark. -/
theorem completeMirror_own (s : State) (p : MirrorPage) (place : Nat) :
    (s.completeMirror p place).rings.own = s.rings.own ∧
    (s.completeMirror p place).rings.mirror.high = some p.slice := by
  by_cases hjoins : ∃ u ∈ s.rings.runs, u.Joins p
  · rw [completeMirror_joining place hjoins]
    exact ⟨rfl, rfl⟩
  · have hnew : ∀ u ∈ s.rings.runs, ¬ u.Joins p := fun u hu h => hjoins ⟨u, hu, h⟩
    by_cases hroom : s.rings.runs.length < 4
    · rw [completeMirror_opening place hnew hroom]
      exact ⟨rfl, rfl⟩
    · obtain ⟨_, -, -, hown⟩ := giveUpOldestRun_mirror s
      rw [completeMirror_givingUp place hnew (Nat.not_lt.mp hroom)]
      exact ⟨hown, rfl⟩

/-! ### The eighth slot with ST_WAIT held -/

/-- The state in which the slot's bytes stand in the DRAM and no operation is in progress. -/
def State.written (s : State) (page : Nat) (lane : Lane) (bytes : List Byte) : State :=
  ({ s with dram := Memory.writeBytes s.dram (slotAddress page lane) bytes } : State).withStore
    { s.store with op := none }

theorem finish_held {s : State} (hwait : s.stWait = true) : s.finish = s.settleNotices := by
  rw [State.finish, grant_held s hwait]

section Eighth

variable {place page : Nat} {bytes : List Byte} {s : State} (hreset : s.resetN = true)
  (hwait : s.stWait = true) (hpage : page < storePages s.control.sizeCode)

include hreset hwait hpage

theorem exec_eighth_capture {p : OwnPage} {rest : List OwnPage}
    (hop : s.store.op = some (.writeSlot .capture page 7 bytes true))
    (hw : s.store.captureWrite = some { place := place, lane := 7 }) (hstaged : s.store.capture = p :: rest) :
    exec .slotWriteEnd s = .next (((s.written page 7 bytes).withStore { s.store with
      op := none, captureWrite := none, capture := rest }).completeOwn p place).settleNotices := by
  have hlast : s.slotWritten .capture page 7 bytes true =
      ((s.written page 7 bytes).withStore { s.store with
        op := none, captureWrite := none, capture := rest }).completeOwn p place :=
    advanceCapture_last (s := s.written page 7 bytes) hw hstaged
  rw [exec_slotWriteEnd hreset hop hpage, hlast]
  exact congrArg Host.Outcome.next (finish_held hwait)

theorem exec_eighth_mirror {p : MirrorPage} {rest : List MirrorPage}
    (hop : s.store.op = some (.writeSlot .mirror page 7 bytes true))
    (hw : s.store.mirrorWrite = some { place := place, lane := 7 }) (hstaged : s.store.mirror = p :: rest) :
    exec .slotWriteEnd s = .next (((s.written page 7 bytes).withStore { s.store with
      op := none, mirrorWrite := none, mirror := rest }).completeMirror p place).settleNotices := by
  have hlast : s.slotWritten .mirror page 7 bytes true =
      ((s.written page 7 bytes).withStore { s.store with
        op := none, mirrorWrite := none, mirror := rest }).completeMirror p place :=
    advanceMirror_last (s := s.written page 7 bytes) hw hstaged
  have hheld : (((s.written page 7 bytes).withStore { s.store with
      op := none, mirrorWrite := none, mirror := rest }).completeMirror p place).stWait = true := by
    obtain ⟨_, _, h⟩ := completeMirror_frame ((s.written page 7 bytes).withStore { s.store with
      op := none, mirrorWrite := none, mirror := rest }) p place
    rw [h]
    exact hwait
  rw [exec_slotWriteEnd hreset hop hpage, hlast, finish_held hheld]

end Eighth

/-- Settles O36: the record of the page, and for a mirror page the run list. -/
theorem eighthSlotCompletesPage : Obligations.EighthSlotCompletesPage := by
  refine ⟨fun place page bytes p rest s hreset hwait hop hpage hw hstaged => ?_,
    fun place page bytes p rest s hreset hwait hop hpage hw hstaged => ?_⟩
  · refine ⟨_, p.record s.control.id place,
      exec_eighth_capture hreset hwait hpage hop hw hstaged, rfl, rfl, rfl, rfl, rfl, rfl, rfl,
      decide_eq_true_iff, absentMask_getLsbD p.slots, rfl, rfl⟩
  · intro joins own closed
    refine ⟨_, p.record place, exec_eighth_mirror hreset hwait hpage hop hw hstaged, ?_⟩
    have hrings : ((s.written page 7 bytes).withStore { s.store with
      op := none, mirrorWrite := none, mirror := rest }).rings = s.rings := rfl
    have hstore : ((s.written page 7 bytes).withStore { s.store with
      op := none, mirrorWrite := none, mirror := rest }).store = { s.store with
        op := none, mirrorWrite := none, mirror := rest } := rfl
    have hserver : ((s.written page 7 bytes).withStore { s.store with
      op := none, mirrorWrite := none, mirror := rest }).server = s.server := rfl
    generalize (s.written page 7 bytes).withStore { s.store with
      op := none, mirrorWrite := none, mirror := rest } = u at *
    obtain ⟨hown, hhigh⟩ := completeMirror_own u p place
    obtain ⟨_, _, hframe⟩ := completeMirror_frame u p place
    have hstore' : (u.completeMirror p place).store = u.store := by rw [hframe]
    have hserver' : (u.completeMirror p place).server = u.server := by rw [hframe]
    rw [settleNotices_store, settleNotices_rings, settleNotices_server, hstore', hserver', ← hrings]
    exact ⟨hstore, hhigh, hown, rfl, rfl, rfl, rfl, rfl, absentMask_getLsbD p.slots,
      fun us v => completeMirror_carried place, completeMirror_opened place,
      fun v us => completeMirror_replaced place, hserver⟩

end Sys2Proof.Machine
end


section
/-! SUPPORT. Production into the read buffer (R144, R147), the order in which one block's notices join (R174),
and the store fault (R115, R137, R154). -/

namespace Sys2Proof.Machine

/-! ### Production (R144, R147) -/

theorem Recall.pump_of_producing {r : Recall} (hreading : r.reading = true) (hclaim : r.claim = none)
    (hlive : r.readLive = false) : r.pump = Recall.pumpFrom (r.queue.length + 1) r :=
  if_pos ⟨hreading, hclaim, hlive⟩

theorem Recall.pump_of_resting {r : Recall}
    (h : r.reading = false ∨ r.claim ≠ none ∨ r.readLive = true) : r.pump = r := by
  refine if_neg ?_
  rintro ⟨hreading, hclaim, hlive⟩
  obtain h | h | h := h
  · exact Bool.false_ne_true (h.symm.trans hreading)
  · exact h hclaim
  · exact Bool.false_ne_true (hlive.symm.trans h)

theorem pumpFrom_of_none {n : Nat} {r : Recall} (hpos : r.pos = none) : Recall.pumpFrom (n + 1) r = r := by
  rw [Recall.pumpFrom, hpos]

/-- With a lookup next, its claim is presented when the room allows (R144). -/
theorem pumpFrom_of_slot {n : Nat} {r : Recall} {p : ReadPos} {t : Slice} {l : Lane}
    (hpos : r.pos = some p) (hplace : p.place = .slot t l) : Recall.pumpFrom (n + 1) r =
      if 336 ≤ r.roomLeft then
        { r with claim := some { source := p.request.source, slice := t, lane := l } }
      else r := by
  rw [Recall.pumpFrom, hpos]
  dsimp only
  rw [hplace]

/-- The read position rests at a DONE item that was produced (R147). -/
theorem pumpFrom_of_rest {n : Nat} {r : Recall} {p : ReadPos} (hpos : r.pos = some p)
    (hplace : p.place = .done) (hmade : (r.buffer.any fun i => i.isDoneOf p.request) = true) :
    Recall.pumpFrom (n + 1) r = r := by
  rw [Recall.pumpFrom, hpos]
  dsimp only
  rw [hplace]
  exact if_pos hmade

/-- The DONE item that is next is produced (R147). -/
theorem pumpFrom_of_done {n : Nat} {r : Recall} {p : ReadPos} (hpos : r.pos = some p)
    (hplace : p.place = .done) (hnew : (r.buffer.any fun i => i.isDoneOf p.request) = false)
    (hroom : 8 ≤ r.roomLeft) : Recall.pumpFrom (n + 1) r =
      Recall.pumpFrom n { r.produce p (r.doneItem p.request) .done with
        pos := some (r.afterDone p.request) } := by
  rw [Recall.pumpFrom, hpos]
  dsimp only
  rw [hplace]
  dsimp only
  rw [if_neg (by rw [hnew]; exact Bool.false_ne_true), if_pos hroom]

theorem pumpFrom_of_full {n : Nat} {r : Recall} {p : ReadPos} (hpos : r.pos = some p)
    (hplace : p.place = .done) (hfull : ¬ 8 ≤ r.roomLeft) : Recall.pumpFrom (n + 1) r = r := by
  rw [Recall.pumpFrom, hpos]
  dsimp only
  rw [hplace]
  dsimp only
  rw [if_neg hfull, ite_self]

/-- Production adds DONE items only, behind what the buffer holds (R147). -/
theorem pumpFrom_buffer (n : Nat) (r : Recall) : ∃ made, (Recall.pumpFrom n r).buffer = r.buffer ++ made ∧
    ∀ i ∈ made, ∃ b g, i.item = .done b g := by
  have kept : ∃ made, r.buffer = r.buffer ++ made ∧ ∀ i ∈ made, ∃ b g, i.item = .done b g :=
    ⟨[], (List.append_nil _).symm, nofun⟩
  induction n generalizing r with
  | zero => exact kept
  | succ n ih =>
    cases hpos : r.pos with
    | none => rw [pumpFrom_of_none hpos]; exact kept
    | some p =>
      cases hplace : p.place with
      | slot t l => rw [pumpFrom_of_slot hpos hplace]; split <;> exact kept
      | done =>
        cases hmade : r.buffer.any fun i => i.isDoneOf p.request with
        | true => rw [pumpFrom_of_rest hpos hplace hmade]; exact kept
        | false =>
          by_cases hroom : 8 ≤ r.roomLeft
          · have hdone : ∃ b g, r.doneItem p.request = .done b g := by
              unfold Recall.doneItem
              split <;> exact ⟨_, _, rfl⟩
            obtain ⟨made, hbuffer, hall⟩ := ih ({ r.produce p (r.doneItem p.request) .done with
              pos := some (r.afterDone p.request) }) ⟨[], (List.append_nil _).symm, nofun⟩
            rw [pumpFrom_of_done hpos hplace hmade hroom]
            refine ⟨_, hbuffer.trans (List.append_assoc _ _ _), fun i hi => ?_⟩
            obtain hi | hi := List.mem_append.mp hi
            · rw [List.mem_singleton.mp hi]
              exact hdone
            · exact hall i hi
          · rw [pumpFrom_of_full hpos hplace hroom]
            exact kept

/-! ### The order of one block's notices (R174) -/

theorem takeFirst_mem {b : Raiser} {rs rest : List Raised} {n : Notice}
    (htaken : takeFirst b rs = some (n, rest)) :
    (∃ r ∈ rs, r.raiser = b ∧ r.notice = n) ∧ ∀ r ∈ rest, r ∈ rs := by
  induction rs generalizing n rest with
  | nil => cases htaken
  | cons r rs ih =>
    rw [takeFirst] at htaken
    split at htaken
    · next hb =>
      cases htaken
      exact ⟨⟨r, List.mem_cons_self, hb, rfl⟩, fun _ h => List.mem_cons_of_mem _ h⟩
    · split at htaken
      · cases htaken
      · next m left hm =>
        cases htaken
        obtain ⟨⟨x, hx, hb, hn⟩, hleft⟩ := ih hm
        refine ⟨⟨x, List.mem_cons_of_mem _ hx, hb, hn⟩, fun y hy => ?_⟩
        obtain rfl | hy := List.mem_cons.mp hy
        · exact List.mem_cons_self
        · exact List.mem_cons_of_mem _ (hleft y hy)

/-- Taking a block's first notice out keeps the order of each block's notices; `only` picks out those of
block `c`. -/
theorem takeFirst_filter {b c : Raiser} {rs rest : List Raised} {n : Notice} (only : Notice → Bool)
    (honly : ∀ r ∈ rs, only r.notice = true ↔ r.raiser = c) (htaken : takeFirst b rs = some (n, rest)) :
    (n :: rest.map Raised.notice).filter only = (rs.map Raised.notice).filter only := by
  induction rs generalizing n rest with
  | nil => cases htaken
  | cons r rs ih =>
    have hrest : ∀ x ∈ rs, only x.notice = true ↔ x.raiser = c := fun x hx =>
      honly x (List.mem_cons_of_mem _ hx)
    rw [takeFirst] at htaken
    split at htaken
    · cases htaken
      rfl
    · next hne =>
      split at htaken
      · cases htaken
      · next m left hm =>
        cases htaken
        have hkept := ih hrest hm
        obtain ⟨⟨x, hx, hb, rfl⟩, -⟩ := takeFirst_mem hm
        rw [List.map_cons, List.map_cons, List.filter_cons (x := r.notice), ← hkept]
        by_cases hfirst : only r.notice = true
        · have hother : only x.notice ≠ true := fun h =>
            hne (((honly r List.mem_cons_self).mp hfirst).trans ((hrest x hx).mp h ▸ hb))
          rw [List.filter_cons_of_neg hother, List.filter_cons_of_pos hfirst, if_pos hfirst,
            List.filter_cons_of_neg hother]
        · simp only [List.filter_cons, if_neg hfirst]

/-- Whatever the free values say, the notices of one block join in the order in which it raised them. -/
theorem mergeRaised_filter {b : Raiser} (only : Notice → Bool) (n c : Nat) {rs : List Raised}
    (honly : ∀ r ∈ rs, only r.notice = true ↔ r.raiser = b) :
    (mergeRaised n c rs).1.filter only = (rs.map Raised.notice).filter only := by
  induction n generalizing c rs with
  | zero => rfl
  | succ n ih =>
    have hnone : raisersOf rs [] = [] → rs = [] := by
      intro h
      cases rs with
      | nil => rfl
      | cons r rs =>
        have hperm := mergeRaised_perm 1 c (r :: rs)
        rw [mergeRaised, h] at hperm
        exact nomatch hperm.length_eq
    rw [mergeRaised]
    split
    · next h => rw [hnone h]; rfl
    · rfl
    · next a as _ =>
      dsimp only
      split
      · rfl
      · next x rest htaken =>
        have hrest : ∀ r ∈ rest, only r.notice = true ↔ r.raiser = b := fun r hr =>
          honly r ((takeFirst_mem htaken).2 r hr)
        rw [← takeFirst_filter only honly htaken, List.filter_cons, List.filter_cons, ih (c + 1) hrest]

/-! ### The store fault (R137) -/

theorem grant_of_paused {s : State} (hphase : s.store.phase = .pause) : s.grant = s := by
  by_cases hop : s.store.op = none
  · cases hwait : s.stWait with
    | true => exact grant_held s hwait
    | false => exact grant_of_pause hop hwait hphase
  · exact grant_busy s hop

/-- What the fault raises, in the order of R137. -/
def State.faultRaised (s : State) : List Raised :=
  [{ raiser := .store, notice := {
      kind := .storeFault, slice := s.clock.index, subject := byte s.store.faultSubject
      detail := BitVec.ofNat 16 (s.store.capture.length + s.store.mirror.length) } }] ++
  ((if s.rings.own.held then [{ raiser := .rings, notice := {
      kind := .ringRestarted, slice := s.clock.index, subject := byte 0, detail := 4 } }] else []) ++
  (if s.rings.mirror.held then [{ raiser := .rings, notice := {
      kind := .ringRestarted, slice := s.clock.index, subject := byte 1, detail := 4 } }] else []))

theorem restartOwn_eq (s : State) (c : Half) : s.restartOwn c = { s with
    rings := { s.rings with own := Ring.empty }
    raised := s.raised ++ if s.rings.own.held then [{ raiser := .rings, notice := {
      kind := .ringRestarted, slice := s.clock.index, subject := byte 0, detail := c } }] else [] } := by
  unfold State.restartOwn
  dsimp only
  split
  · rfl
  · rw [List.append_nil]
    rfl

theorem restartMirror_eq (s : State) (c : Half) : s.restartMirror c = { s with
    rings := { s.rings with mirror := Ring.empty, runs := [] }
    raised := s.raised ++ if s.rings.mirror.held then [{ raiser := .rings, notice := {
      kind := .ringRestarted, slice := s.clock.index, subject := byte 1, detail := c } }] else [] } := by
  unfold State.restartMirror
  dsimp only
  split
  · rfl
  · rw [List.append_nil]
    rfl

/-- The store fault as one update of the state. -/
theorem storeFault_eq (s : State) : s.storeFault = { s with
    store := { s.store.restartWrites with
      reinits := satSucc 65535 s.store.reinits, phase := .pause, pauseTime := 0, initDone := 0
      debt := 0, ticks := 0 }
    rings := { s.rings with own := Ring.empty, mirror := Ring.empty, runs := [] }
    server := s.server.fault s.recallInFlight
    raised := s.raised ++ s.faultRaised } := by
  unfold State.storeFault
  dsimp only
  rw [restartOwn_eq, restartMirror_eq, State.faultRaised, ← List.append_assoc, ← List.append_assoc]
  rfl

theorem held_iff (r : Ring) : r.held = true ↔ ¬ (r.pages = [] ∧ r.high = none) := by
  rw [Ring.held, Bool.or_eq_true, Bool.not_eq_true', List.isEmpty_eq_false_iff, Option.isSome_iff_ne_none,
    not_and_or]

theorem refreshTick_of_fault {s : State} (hready : s.store.phase = .ready) (hdebt : s.store.debt = 8) :
    s.refreshTick = s.storeFault := by
  unfold State.refreshTick
  rw [if_pos hready, if_pos (by rw [hdebt])]

/-- The read buffer, the claim and the read in flight at a fault, before production goes on (R154). -/
def Recall.rewound (r : Recall) (back : Option ReadPos) : Recall :=
  { r with
    buffer := r.buffer.filter fun i => i.handed, claim := none, pos := back
    inFlight := r.inFlight.map fun f => { f with discard := true } }

theorem fault_eq (r : Recall) (b : Bool) : r.fault b = (r.rewound (r.faultPosition b)).pump := rfl

theorem rewound_readLive (r : Recall) (back : Option ReadPos) : (r.rewound back).readLive = false :=
  r.dropRead_readLive

section Fault

variable {r : Recall} {b : Bool} {back : Option ReadPos} (hback : r.faultPosition b = back)

include hback

theorem fault_of_closed (hreading : r.reading = false) : r.fault b = r.rewound back := by
  rw [fault_eq, hback, Recall.pump_of_resting (r := r.rewound back) (.inl hreading)]

theorem fault_of_reading (hreading : r.reading = true) :
    r.fault b = Recall.pumpFrom (r.queue.length + 1) (r.rewound back) := by
  rw [fault_eq, hback, Recall.pump_of_producing (r := r.rewound back) hreading rfl
    (rewound_readLive r back)]
  rfl

theorem fault_of_slot (hreading : r.reading = true) {p : ReadPos} {t : Slice} {l : Lane}
    (hp : back = some p) (hplace : p.place = .slot t l) : r.fault b = { r.rewound back with
      claim := if ((r.rewound back).buffer.map fun i => i.item.size).sum + 336 ≤ 19940 then
          some { source := p.request.source, slice := t, lane := l }
        else none } := by
  have hroom : 336 ≤ (r.rewound back).roomLeft ↔
      ((r.rewound back).buffer.map fun i => i.item.size).sum + 336 ≤ 19940 := by
    rw [Recall.roomLeft_eq, Recall.used]
    omega
  rw [fault_of_reading hback hreading, pumpFrom_of_slot hp hplace]
  by_cases h : 336 ≤ (r.rewound back).roomLeft
  · rw [if_pos h, if_pos (hroom.mp h)]
  · rw [if_neg h, if_neg (fun h' => h (hroom.mpr h'))]
    rfl

theorem fault_of_done (hreading : r.reading = true) {p : ReadPos} (hp : back = some p)
    (hplace : p.place = .done) :
    (r.fault b).buffer.take (r.rewound back).buffer.length = (r.rewound back).buffer ∧
    (∀ i ∈ (r.fault b).buffer.drop (r.rewound back).buffer.length, ∃ b g, i.item = .done b g) ∧
    (((r.rewound back).buffer.any fun i => i.isDoneOf p.request) = true → r.fault b = r.rewound back) := by
  obtain ⟨made, hbuffer, hall⟩ := pumpFrom_buffer (r.queue.length + 1) (r.rewound back)
  rw [fault_of_reading hback hreading, hbuffer, List.take_left, List.drop_left]
  exact ⟨rfl, hall, fun hmade => pumpFrom_of_rest hp hplace hmade⟩

theorem fault_of_none (hreading : r.reading = true) (hnone : back = none) : r.fault b = r.rewound back := by
  rw [fault_of_reading hback hreading, pumpFrom_of_none hnone]

end Fault

theorem fault_kept (r : Recall) (b : Bool) :
    (r.fault b).queue = r.queue ∧ (r.fault b).cursor = r.cursor := by
  obtain ⟨_, _, _, h⟩ := Recall.pump_frame (r.rewound (r.faultPosition b))
  rw [fault_eq, h]
  exact ⟨rfl, rfl⟩

/-- Only the RING_RESTARTED notices of a fault come from the rings. -/
theorem faultRaised_rings (s : State) : ∀ r ∈ s.faultRaised,
    decide (r.notice.kind = .ringRestarted) = true ↔ r.raiser = .rings := by
  intro r hr
  obtain hr | hr := List.mem_append.mp hr
  · rw [List.mem_singleton.mp hr]
    exact ⟨nofun, nofun⟩
  · obtain hr | hr := List.mem_append.mp hr <;>
    · split at hr
      · rw [List.mem_singleton.mp hr]
        exact ⟨fun _ => rfl, fun _ => rfl⟩
      · exact nomatch hr

theorem settleNotices_merged (s : State) : s.settleNotices.notices =
    (mergeRaised s.raised.length s.freeUses s.raised).1.foldl (NoticeQueue.join s.windowInFlight)
      s.notices := rfl

theorem storeFault_notices (s : State) (hraised : s.raised = []) : ∃ order : List Notice,
    order.Perm (s.faultRaised.map Raised.notice) ∧
    order.filter (fun n => decide (n.kind = .ringRestarted)) =
      (s.faultRaised.map Raised.notice).filter (fun n => decide (n.kind = .ringRestarted)) ∧
    s.storeFault.settleNotices.notices = order.foldl (NoticeQueue.join s.windowInFlight) s.notices := by
  have hall : s.storeFault.raised = s.faultRaised := by
    rw [storeFault_eq]
    dsimp only
    rw [hraised, List.nil_append]
  have hwindow : s.storeFault.windowInFlight = s.windowInFlight := by
    rw [storeFault_eq, State.windowInFlight, State.windowInFlight]
  have hnotices : s.storeFault.notices = s.notices := by rw [storeFault_eq]
  have hmerged := settleNotices_merged s.storeFault
  rw [hall, hwindow, hnotices] at hmerged
  exact ⟨_, mergeRaised_perm _ _ _, mergeRaised_filter _ _ _ (faultRaised_rings s), hmerged⟩

/-- The notices of a fault, in the form of the obligation. -/
theorem faultRaised_notices (s : State) : s.faultRaised.map Raised.notice =
    { kind := .storeFault, slice := s.clock.index
      subject := byte ((if s.store.captureWrite = none then 0 else 1) +
        (if s.store.mirrorWrite = none then 0 else 2))
      detail := BitVec.ofNat 16 (s.store.capture.length + s.store.mirror.length) } ::
    ((if s.rings.own.pages = [] ∧ s.rings.own.high = none then [] else [{
      kind := .ringRestarted, slice := s.clock.index, subject := byte 0, detail := BitVec.ofNat 16 4 }]) ++
    (if s.rings.mirror.pages = [] ∧ s.rings.mirror.high = none then [] else [{
      kind := .ringRestarted, slice := s.clock.index, subject := byte 1, detail := BitVec.ofNat 16 4 }])) := by
  have hsubject : s.store.faultSubject = (if s.store.captureWrite = none then 0 else 1) +
      (if s.store.mirrorWrite = none then 0 else 2) := by
    unfold Store.faultSubject
    cases s.store.captureWrite <;> cases s.store.mirrorWrite <;> rfl
  have hring (r : Ring) (x : Raised) : (if r.held then [x] else []).map Raised.notice =
      if r.pages = [] ∧ r.high = none then [] else [x.notice] := by
    by_cases h : r.pages = [] ∧ r.high = none
    · rw [if_pos h, if_neg fun hheld => (held_iff r).mp hheld h]
      rfl
    · rw [if_neg h, if_pos ((held_iff r).mpr h)]
      rfl
  rw [State.faultRaised, List.map_append, List.map_append, hring, hring, hsubject]
  rfl

theorem faultPosition_eq (s : State) : s.server.faultPosition s.recallInFlight =
    if s.link.tx = .sendingRecall then
      match s.server.buffer.find? (fun i => !i.handed) with
      | some i => some { request := i.request, place := i.place }
      | none => s.server.pos
    else s.server.cursor := by
  unfold Recall.faultPosition State.recallInFlight
  by_cases h : s.link.tx = .sendingRecall
  · rw [if_pos h, if_pos (decide_eq_true h)]
    cases s.server.buffer.find? fun i => !i.handed <;> rfl
  · rw [if_neg h, if_neg (fun hd => h (of_decide_eq_true hd))]

theorem exec_refreshTick_fault {s : State} (hreset : s.resetN = true) (hready : s.store.phase = .ready)
    (hdebt : s.store.debt = 8) : exec .refreshTick s = .next s.storeFault.settleNotices := by
  have hpaused : s.storeFault.grant = s.storeFault := grant_of_paused (by rw [storeFault_eq])
  rw [exec_refreshTick hreset, refreshTick_of_fault hready hdebt, State.finish, hpaused]

theorem restartWrites_op_none {x : Store} (h : x.op = none) : x.restartWrites.op = none := by
  unfold Store.restartWrites
  simp only [h]

/-- Settles O34: the store, the rings, the notices, and the recall service as the fault rewinds it. -/
theorem storeFaultAtDebtEight : Obligations.StoreFaultAtDebtEight := by
  intro s hreset hready hdebt told restarts fault back rewound
  have hback : s.server.faultPosition s.recallInFlight = back := faultPosition_eq s
  have hserver : s.storeFault.settleNotices.server = s.server.fault s.recallInFlight := by
    rw [settleNotices_server, storeFault_eq]
  have hop : s.store.op = none → s.storeFault.settleNotices.store.op = none := by
    intro h
    rw [settleNotices_store, storeFault_eq]
    exact restartWrites_op_none h
  obtain ⟨hqueue, hcursor⟩ := fault_kept s.server s.recallInFlight
  refine ⟨_, exec_refreshTick_fault hreset hready hdebt, ?_, hop, ?_, fun hraised => ?_, fun hreading => ?_,
    fun p u l hreading hp hplace => ?_, fun p hreading hp hplace => ?_, fun hreading hnone => ?_, ?_, ?_, ?_⟩
  · rw [settleNotices_store, storeFault_eq]
    rfl
  · rw [settleNotices_rings, storeFault_eq]
  · obtain ⟨order, hperm, hfilter, hjoined⟩ := storeFault_notices s hraised
    rw [faultRaised_notices] at hperm hfilter
    refine ⟨order, hperm, hfilter.trans ?_, hjoined⟩
    have hrings (r : Ring) (n : Nat) : (if r.pages = [] ∧ r.high = none then [] else
        [told .ringRestarted n 4]).filter (fun m => decide (m.kind = .ringRestarted)) =
        if r.pages = [] ∧ r.high = none then [] else [told .ringRestarted n 4] := by
      split <;> rfl
    exact (List.filter_append _ _).trans (congrArg₂ _ (hrings _ _) (hrings _ _))
  · rw [hserver]
    exact fault_of_closed hback hreading
  · rw [hserver]
    exact fault_of_slot hback hreading hp hplace
  · rw [hserver]
    exact fault_of_done hback hreading hp hplace
  · rw [hserver]
    exact fault_of_none hback hreading hnone
  · rw [hserver, hqueue]
  · rw [hserver, hcursor]
  · have hframe := storeFault_eq s
    obtain ⟨_, _, hsettled⟩ := settleNotices_frame s.storeFault
    generalize s.storeFault.settleNotices = t at *
    generalize s.storeFault = u at *
    subst hframe
    subst hsettled
    rfl

end Sys2Proof.Machine
end


section
/-! SUPPORT. While ST_WAIT is held no store operation starts (R126). -/

namespace Sys2Proof.Machine

/-- ST_WAIT is held and the store is idle. -/
def State.Held (s : State) : Prop := s.stWait = true ∧ s.store.op = none

theorem places_op {s t : State} (h : t.places = s.places) : t.store.op = s.store.op :=
  congrArg (fun p => p.2.2.2.2.1) h

/-- The other blocks, and of the store all but the operation, may change. -/
theorem State.Held.of_blocks {s t : State} (hs : s.Held) (hblocks : OnlyBlocks s t)
    (hplaces : t.places = s.places) : t.Held :=
  ⟨hblocks.stWait.trans hs.1, (places_op hplaces).trans hs.2⟩

theorem State.Held.of_idle {s t : State} (hs : s.Held) (hblocks : OnlyBlocks s t)
    (hop : s.store.op = none → t.store.op = none) : t.Held :=
  ⟨hblocks.stWait.trans hs.1, hop hs.2⟩

theorem startWindow_stWait (s : State) : s.startWindow.stWait = s.stWait := by
  unfold State.startWindow
  split
  · rfl
  · exact (settleUnsent_frame s).stWait

theorem windowSent_stWait (s : State) (page : Option Slice) (n : Nat) (plan : List PlanItem) (claim : Bool) :
    (s.windowSent page n plan claim).stWait = s.stWait := by
  unfold State.windowSent
  dsimp only
  split <;> split <;> rfl

theorem windowAborted_stWait (s : State) (page : Option Slice) (n : Nat) :
    (s.windowAborted page n).stWait = s.stWait := by
  unfold State.windowAborted
  dsimp only
  split
  · exact (settleUnsent_frame s).stWait
  · rfl

/-- A charter that comes into force starts no operation. -/
theorem enforce_op {s : State} (p : PendingCharter) (hop : s.store.op = none) :
    (s.enforce p).store.op = none := by
  by_cases hsame : p.charter.mirrorShare = s.control.charter.mirrorShare
  · obtain ⟨_, h⟩ := enforce_same hsame
    rw [h]
    exact hop
  · obtain ⟨_, _, h⟩ := enforce_other hsame
    rw [h]
    exact restartWrites_op_none hop

theorem takeCharter_op {s : State} (k : StationId) (body : List Byte) (hop : s.store.op = none) :
    (s.takeCharter k body).store.op = none := by
  have adopted (p : PendingCharter) : (s.adoptNow p).store.op = none := by
    have hset : ((s.enforce p).settingsFrom p.charter).store.op = none := by
      rw [settingsFrom_rest]
      exact enforce_op p hop
    unfold State.adoptNow
    dsimp only
    split
    · rw [places_op (recompute_places _)]
      exact hset
    · exact hset
  unfold State.takeCharter
  split
  · split
    · exact hop
    · unfold State.judgeCharter
      dsimp only
      split
      · exact adopted _
      · split
        · exact hop
        · split
          · exact hop
          · split <;> exact hop
  · exact hop

theorem takeRequest_op {s : State} (k : StationId) (r : Request) (hop : s.store.op = none) :
    (s.takeRequest k r).store.op = none := by
  cases r with
  | charter body => exact takeCharter_op k body hop
  | condition code =>
    change (s.takeCondition k code).store.op = none
    unfold State.takeCondition
    split
    · split <;> exact hop
    · exact hop
  | timeMark e d m =>
    change (s.takeTimeMark k e d m).store.op = none
    unfold State.takeTimeMark
    split <;> exact hop
  | probe target v =>
    change (s.takeProbe k target v).store.op = none
    unfold State.takeProbe
    split <;> exact hop
  | stop target =>
    change (s.takeStop k target).store.op = none
    unfold State.takeStop
    split <;> exact hop
  | start target =>
    change (s.takeStart k target).store.op = none
    unfold State.takeStart
    split <;> exact hop
  | archiveMark pairs =>
    exact (places_op (takeArchiveMark_places s k pairs)).trans hop
  | recallRequest tag holder source mask first last =>
    change (s.takeRecallRequest k tag holder source mask first last).store.op = none
    unfold State.takeRecallRequest
    split
    · unfold State.takeRecall
      split
      · exact (places_op (judgeRecall_places s k tag source mask first last)).trans hop
      · exact hop
    · exact hop

theorem adoptPending_op {s : State} (hop : s.store.op = none) : s.adoptPending.store.op = none := by
  unfold State.adoptPending
  split
  · exact hop
  · exact enforce_op _ hop

theorem adoptPending_stWait (s : State) : s.adoptPending.stWait = s.stWait := by
  unfold State.adoptPending
  split
  · rfl
  · exact (enforce_frame s _).stWait

theorem refreshTick_op {s : State} (hop : s.store.op = none) : s.refreshTick.store.op = none := by
  unfold State.refreshTick
  split
  · split
    · rw [storeFault_eq]
      exact restartWrites_op_none hop
    · exact hop
  · exact hop

theorem refreshEnd_of_idle {s : State} (hop : s.store.op = none) : s.refreshEnd = s :=
  if_neg fun (h : s.store.op = some .refresh) => nomatch hop.symm.trans h

/-- Every operation but the release keeps the store idle while ST_WAIT is held. -/
theorem held_kept : KeptByWork State.Held where
  pending _ _ hs := hs
  stopN _ _ hs := hs
  waitRaised _ hs := ⟨rfl, hs.2⟩
  counts s n hs := by unfold State.countsPass; split <;> exact hs
  assertReset _ hs := ⟨hs.1, rfl⟩
  releaseReset _ _ _ _ hs := ⟨hs.1, rfl⟩
  settle _ hs := hs
  grant s hs := by rw [grant_held s hs.1]; exact hs
  link _ _ h hs := by obtain ⟨_, rfl⟩ := h; exact hs
  periodEnd _ _ hs := hs
  clockBoundary s p n hs := hs.of_blocks (clockBoundary_frame s p n) (clockBoundary_places s p n)
  ageing s hs := hs.of_blocks ((ageing_frame s).trans (losePeers_frame _)) (losePeers_places _)
  timeOutOrphans _ hs := hs
  losePeers s hs := hs.of_blocks (losePeers_frame s) (losePeers_places s)
  seatBoundary s p q hs := hs.of_blocks (seatBoundary_frame s p q) (seatBoundary_places s p q)
  adoptPending s hs := ⟨(adoptPending_stWait s).trans hs.1, adoptPending_op hs.2⟩
  changeCondition s hs := by unfold State.changeCondition; split <;> exact hs
  changeMode s b hs := hs.of_blocks (changeMode_frame s b) (changeMode_places s b)
  decideListen s b hs := hs.of_blocks (decideListen_frame s b) (decideListen_places s b)
  recompute s hs := hs.of_blocks (recompute_frame s).blocks (recompute_places s)
  endFree s m hs := hs.of_blocks (endFree_frame s m) (endFree_places s m)
  beginSlice _ hs := hs
  linkBoundary _ hs := hs
  startWindow s hs := ⟨(startWindow_stWait s).trans hs.1, (places_op (startWindow_places s)).trans hs.2⟩
  windowSent s page n plan claim hs := ⟨(windowSent_stWait s page n plan claim).trans hs.1,
    (places_op (windowSent_places s page n plan claim)).trans hs.2⟩
  windowAborted s page n hs := ⟨(windowAborted_stWait s page n).trans hs.1,
    (places_op (windowAborted_places s page n)).trans hs.2⟩
  startRecall s hs := by obtain ⟨_, _, h⟩ := startRecall_frame s; rw [h]; exact hs
  recallSent _ hs := hs
  recallAborted _ _ hs := hs
  applyHeader s h t _ hs := hs.of_blocks (applyHeader_frame s h t) (applyHeader_places s h t)
  hearCondition s h hs := hs.of_blocks (hearCondition_frame s h) (hearCondition_places s h)
  clockLeadIn s h l hs := by obtain ⟨_, _, h⟩ := clockLeadIn_frame s h l; rw [h]; exact hs
  mirrorBlocks s k bs hs := hs.of_blocks (mirrorBlocks_frame s k bs) (mirrorBlocks_places s k bs)
  applyOpen s k i hs := by obtain ⟨_, _, h⟩ := applyOpen_frame s k i; rw [h]; exact hs
  applyClose s k i hs := by obtain ⟨_, _, h⟩ := applyClose_frame s k i; rw [h]; exact hs
  applyBeacon s k es hs := by obtain ⟨_, _, h⟩ := applyBeacon_frame s k es; rw [h]; exact hs
  takeRequest s k r hs := hs.of_idle (takeRequest_frame s k r) (takeRequest_op k r)
  pauseEnd s hs := by unfold State.pauseEnd; split <;> exact hs
  refreshTick s hs := hs.of_idle (refreshTick_frame s).blocks refreshTick_op
  refreshEnd s hs := by rw [refreshEnd_of_idle hs.2]; exact hs
  slotWritten _ _ _ _ _ _ hop hs := nomatch hs.2.symm.trans hop
  slotFetched _ _ _ _ hop hs := nomatch hs.2.symm.trans hop

/-- Settles O30: no operation of a command but the release starts one of the store's. -/
theorem stWaitHoldsStore : Obligations.StWaitHoldsStore :=
  ⟨fun _ => rfl, fun _ _ _ hwait hop hc ht => (held_kept.exec hc ⟨hwait, hop⟩ ht).2⟩

end Sys2Proof.Machine
end


section
/-! SUPPORT. Fields, codes and samples written and read again (chapter 11), and a store slot (11.7). -/

namespace Sys2Proof.Machine

/-! ### Readers at an offset -/

theorem byteAt_append_left {a : List Byte} (b : List Byte) {i : Nat} (h : i < a.length) :
    byteAt (a ++ b) i = byteAt a i := by
  rw [byteAt, byteAt, List.getD_append _ _ _ _ h]

theorem byteAt_append_right (a b : List Byte) (i : Nat) : byteAt (a ++ b) (a.length + i) = byteAt b i := by
  rw [byteAt, byteAt, List.getD_append_right _ _ _ _ (Nat.le_add_right _ _), Nat.add_sub_cancel_left]

theorem half16_drop (bs : List Byte) (n i : Nat) : half16 (bs.drop n) i = half16 bs (n + i) := by
  rw [half16, half16, byteAt_drop, byteAt_drop, Nat.add_assoc]

theorem word32_drop (bs : List Byte) (n i : Nat) : word32 (bs.drop n) i = word32 bs (n + i) := by
  simp only [word32, byteAt_drop, Nat.add_assoc]

/-- A 16-bit field reads back as it was written. -/
theorem half16_le16 (x : Half) (rest : List Byte) : half16 (le16 x ++ rest) 0 = x :=
  calc half16 (le16 x ++ rest) 0
    _ = (x >>> 8).setWidth 8 ++ x.setWidth 8 := rfl
    _ = x.setWidth 16 := ushiftRight_append_setWidth 8 8 x
    _ = x := BitVec.setWidth_eq x

/-- A 32-bit field before other bytes reads back as it was written. -/
theorem word32_le32_append (x : Word) (rest : List Byte) : word32 (le32 x ++ rest) 0 = x := word32_le32 x

theorem byte_toNat {n : Nat} (h : n < 256) : (byte n).toNat = n := by
  rw [byte, BitVec.toNat_ofNat, Nat.mod_eq_of_lt h]

/-! ### Codes (Table 11-2) -/

theorem stationOf_byte (k : StationId) : stationOf (byte k.val).toNat = some k := by
  rw [byte_toNat (by omega)]
  exact stationOf_of_val rfl

theorem laneOf_byte (l : Lane) : laneOf (byte l.val).toNat = some l := by
  rw [byte_toNat (by omega)]
  exact dif_pos l.isLt

theorem conditionOf_code (c : Condition) : conditionOf (conditionCode c) = some c := by
  cases c <;> rfl

theorem roleOf_code (r : Role) : roleOf (roleCode r).toNat = some r := by
  cases r <;> rfl

theorem causeOf_code (c : CloseCause) : causeOf (causeCode c) = some c := by
  cases c <;> rfl

theorem activityOf_code (a : Option Activity) : activityOf (activityCode a) = some a := by
  obtain _ | a := a
  · rfl
  · cases a <;> rfl

/-- The bits of five flags in a byte. -/
theorem flags_bits : ∀ a b c d e : Bool,
    let f := flagBit 8 a 0 ||| flagBit 8 b 1 ||| flagBit 8 c 2 ||| flagBit 8 d 3 ||| flagBit 8 e 4
    f.getLsbD 0 = a ∧ f.getLsbD 1 = b ∧ f.getLsbD 2 = c ∧ f.getLsbD 3 = d := by decide

theorem Block.flagsByte_bits (b : Block) (unsent : Bool) :
    (b.flagsByte unsent).getLsbD 0 = b.gap ∧ (b.flagsByte unsent).getLsbD 1 = b.dead ∧
    (b.flagsByte unsent).getLsbD 2 = b.stepped ∧ (b.flagsByte unsent).getLsbD 3 = b.unlocked :=
  flags_bits _ _ _ _ _

/-! ### Samples -/

theorem sampleBytes_length (xs : List Half) : (sampleBytes xs).length = 2 * xs.length := by
  induction xs with
  | nil => rfl
  | cons x xs ih =>
    rw [sampleBytes, List.flatMap_cons, List.length_append, ← sampleBytes, ih, List.length_cons]
    change 2 + _ = _
    omega

theorem halves_sampleBytes (xs : List Half) (rest : List Byte) :
    halves xs.length (sampleBytes xs ++ rest) = xs := by
  induction xs with
  | nil => rfl
  | cons x xs ih =>
    have hbytes : sampleBytes (x :: xs) ++ rest = le16 x ++ (sampleBytes xs ++ rest) :=
      List.append_assoc _ _ _
    rw [hbytes, List.length_cons, halves, half16_le16]
    exact congrArg (x :: ·) ih

/-! ### A store slot (R124, R125, R183) -/

theorem zeros_length (n : Nat) : (zeros n).length = n := List.length_replicate

/-- The bytes of a slot before its check word, from its samples on. -/
theorem slotHeaderBody_some (t : Slice) (k : StationId) (l : Lane) (b : Block) (flags : Byte) :
    slotHeaderBody t k l (some b) flags = le32 t ++ ([byte k.val, byte l.val, 0, byte b.missing,
      byte b.level, b.flagsByte false, conditionCode b.condition, flags] ++
        (sampleBytes b.samples ++ zeros 178)) := by
  simp only [slotHeaderBody, List.append_assoc]

theorem slotHeaderBody_length {t : Slice} {k : StationId} {l : Lane} {b : Block} {flags : Byte}
    (hsamples : b.samples.length = 160) : (slotHeaderBody t k l (some b) flags).length = 510 := by
  rw [slotHeaderBody_some]
  simp only [List.length_append, le32_length, sampleBytes_length, zeros_length, hsamples, List.length_cons,
    List.length_nil]

/-- A slot is its body and the body's check word. -/
theorem slotBytes_check {t : Slice} {k : StationId} {l : Lane} {b : Block} {flags : Byte}
    (hsamples : b.samples.length = 160) :
    (slotBytes t k l (some b) flags).length = 512 ∧
    crc16 ((slotBytes t k l (some b) flags).take 510) = half16 (slotBytes t k l (some b) flags) 510 := by
  have hlen := slotHeaderBody_length (t := t) (k := k) (l := l) (flags := flags) hsamples
  have hslot : slotBytes t k l (some b) flags = slotHeaderBody t k l (some b) flags ++
      (le16 (crc16 (slotHeaderBody t k l (some b) flags)) ++ []) := by
    rw [List.append_nil]
    rfl
  have hcheck := half16_drop (slotBytes t k l (some b) flags) 510 0
  refine ⟨?_, ?_⟩
  · rw [hslot, List.length_append, hlen]
    rfl
  · rw [← Nat.add_zero 510, ← hcheck, Nat.add_zero, hslot, List.take_left' hlen, List.drop_left' hlen,
      half16_le16]

/-- The slot's bytes as its reader takes them apart. -/
theorem slotBytes_some (t : Slice) (k : StationId) (l : Lane) (b : Block) (flags : Byte) : ∃ tail,
    slotBytes t k l (some b) flags = le32 t ++ ([byte k.val, byte l.val, 0, byte b.missing,
      byte b.level, b.flagsByte false, conditionCode b.condition, flags] ++ (sampleBytes b.samples ++ tail)) := by
  refine ⟨zeros 178 ++ le16 (crc16 (slotHeaderBody t k l (some b) flags)), ?_⟩
  rw [slotBytes]
  simp only [slotHeaderBody_some, List.append_assoc]

/-- Settles O37: each field of the slot is read where it was written. -/
theorem slotReadsBackAsWritten : Obligations.SlotReadsBackAsWritten := by
  intro t k l b flags hslice hlane hsamples hmissing hlevel
  obtain ⟨hlen, hcheck⟩ := slotBytes_check (t := t) (k := k) (l := l) (flags := flags) hsamples
  obtain ⟨tail, hbytes⟩ := slotBytes_some t k l b flags
  have hword : word32 (slotBytes t k l (some b) flags) 0 = t := by
    rw [hbytes]
    exact word32_le32_append t _
  have hfields : byteAt (slotBytes t k l (some b) flags) 4 = byte k.val ∧
      byteAt (slotBytes t k l (some b) flags) 5 = byte l.val ∧
      byteAt (slotBytes t k l (some b) flags) 7 = byte b.missing ∧
      byteAt (slotBytes t k l (some b) flags) 8 = byte b.level ∧
      byteAt (slotBytes t k l (some b) flags) 9 = b.flagsByte false ∧
      byteAt (slotBytes t k l (some b) flags) 10 = conditionCode b.condition ∧
      byteAt (slotBytes t k l (some b) flags) 11 = flags ∧
      (slotBytes t k l (some b) flags).drop 12 = sampleBytes b.samples ++ tail := by
    rw [hbytes]
    exact ⟨rfl, rfl, rfl, rfl, rfl, rfl, rfl, rfl⟩
  obtain ⟨hsource, hlane', hmissing', hlevel', hflags, hcondition, hpage, hdrop⟩ := hfields
  refine ⟨hlen, decide_eq_true ⟨hcheck, hword, ?_, ?_⟩, ?_, ?_⟩
  · rw [hsource]
    exact byte_toNat (by omega)
  · rw [hlane']
    exact byte_toNat (by omega)
  · obtain ⟨hgap, hdead, hstepped, hunlocked⟩ := b.flagsByte_bits false
    rw [slotBlock, hword, hdrop, hmissing', hlevel', hflags, hcondition, hgap, hdead, hstepped, hunlocked,
      conditionOf_code, ← hsamples, halves_sampleBytes, byte_toNat (by omega), byte_toNat (by omega), ← hslice,
      ← hlane]
    rfl
  · rw [slotUnsent, hpage]

end Sys2Proof.Machine
end


section
/-! SUPPORT. A span item written and read again (R87, Table 11-5). -/

namespace Sys2Proof.Machine

/-! ### The descriptor -/

theorem descriptor_bits : ∀ opened link time continued : Bool,
    let d := (if opened then 1 ||| flagBit 8 link 3 else 2) ||| flagBit 8 time 2 ||| flagBit 8 continued 4
    (d &&& 3).toNat = (if opened then 1 else 2) ∧ d.getLsbD 2 = time ∧
    (opened = true → d.getLsbD 3 = link) ∧ d.getLsbD 4 = continued := by decide

theorem itemDescriptor_opened {i : SpanItem} {link : Option LinkKey} (hform : i.form = .opened link) :
    (itemDescriptor i &&& 3).toNat = 1 ∧ (itemDescriptor i).getLsbD 2 = i.time.isSome ∧
    (itemDescriptor i).getLsbD 3 = link.isSome ∧ (itemDescriptor i).getLsbD 4 = i.continued := by
  obtain ⟨hkind, htime, hlink, hcontinued⟩ := descriptor_bits true link.isSome i.time.isSome i.continued
  rw [itemDescriptor, hform]
  exact ⟨hkind, htime, hlink rfl, hcontinued⟩

theorem itemDescriptor_closed {i : SpanItem} {e : Slice} {c : CloseCause} (hform : i.form = .closed e c) :
    (itemDescriptor i &&& 3).toNat = 2 ∧ (itemDescriptor i).getLsbD 2 = i.time.isSome ∧
    (itemDescriptor i).getLsbD 4 = i.continued := by
  obtain ⟨hkind, htime, -, hcontinued⟩ := descriptor_bits false false i.time.isSome i.continued
  rw [itemDescriptor, hform]
  exact ⟨hkind, htime, hcontinued⟩

/-! ### The parts of an item -/

/-- The 16 bytes common to both kinds. -/
def commonBytes (i : SpanItem) : List Byte :=
  [itemDescriptor i, byte i.key.owner.val, byte i.key.lane.val, roleCode i.role] ++ le32 i.key.openSlice
    ++ [conditionCode i.condition, byte i.concurrency, 0, 0, 0, 0, 0, 0]

/-- The time part. -/
def timePart : Option TimeOfDay → List Byte
  | none => []
  | some t => timeBytes t

/-- The link part. -/
def linkPart : Option LinkKey → List Byte
  | none => []
  | some l => linkBytes l

/-- The close part. -/
def closePart (e : Slice) (c : CloseCause) : List Byte := le32 e ++ [causeCode c, 0, 0, 0]

theorem itemBytes_opened {i : SpanItem} {link : Option LinkKey} (hform : i.form = .opened link) :
    itemBytes i = commonBytes i ++ (timePart i.time ++ linkPart link) := by
  cases htime : i.time <;> cases link <;>
    simp only [itemBytes, hform, htime, timePart, linkPart, commonBytes, List.append_assoc, List.append_nil,
      List.nil_append]

theorem itemBytes_closed {i : SpanItem} {e : Slice} {c : CloseCause} (hform : i.form = .closed e c) :
    itemBytes i = commonBytes i ++ (closePart e c ++ timePart i.time) := by
  cases htime : i.time <;>
    simp only [itemBytes, hform, htime, timePart, closePart, commonBytes, List.append_assoc, List.append_nil]

theorem timePart_length (t : Option TimeOfDay) : (timePart t).length = if t.isSome then 8 else 0 := by
  cases t <;> rfl
theorem linkPart_length (l : Option LinkKey) : (linkPart l).length = if l.isSome then 8 else 0 := by
  cases l <;> rfl

/-- The time of day reads back, where it is one (R16). -/
theorem readTime_part (t : Option TimeOfDay) (rest : List Byte)
    (hday : ∀ x, t = some x → x.ms.toNat < Config.dayMs) :
    readTime t.isSome (timePart t ++ rest) = some t := by
  cases t with
  | none => rfl
  | some x =>
    have hms : word32 (timePart (some x) ++ rest) 4 = x.ms := word32_le32_append x.ms rest
    have hdays : half16 (timePart (some x) ++ rest) 0 = x.day := half16_le16 x.day _
    unfold readTime
    rw [hms, hdays]
    exact (if_pos rfl).trans (if_pos (hday x rfl))

/-- The common fields read back. -/
theorem readSpanCommon_item {i : SpanItem} (hwf : i.concurrency ≤ 127)
    (hcontinued : (itemDescriptor i).getLsbD 4 = i.continued) (tail : List Byte) :
    readSpanCommon (commonBytes i ++ tail) i.time i.form = some i := by
  have hopen : word32 (commonBytes i ++ tail) 4 = i.key.openSlice := word32_le32 i.key.openSlice
  have hconcurrency : (byteAt (commonBytes i ++ tail) 9).toNat = i.concurrency :=
    byte_toNat (n := i.concurrency) (by omega)
  have howner : stationOf (byteAt (commonBytes i ++ tail) 1).toNat = some i.key.owner :=
    stationOf_byte i.key.owner
  have hlane : laneOf (byteAt (commonBytes i ++ tail) 2).toNat = some i.key.lane := laneOf_byte i.key.lane
  have hrole : roleOf (byteAt (commonBytes i ++ tail) 3).toNat = some i.role := roleOf_code i.role
  have hcondition : conditionOf (byteAt (commonBytes i ++ tail) 8) = some i.condition :=
    conditionOf_code i.condition
  have hflag : (byteAt (commonBytes i ++ tail) 0).getLsbD 4 = i.continued := hcontinued
  unfold readSpanCommon
  simp only [howner, hlane, hrole, hcondition, hopen, hconcurrency, hflag, if_pos hwf]

theorem commonBytes_length (i : SpanItem) : (commonBytes i).length = 16 := rfl

theorem drop_common (i : SpanItem) (tail : List Byte) : (commonBytes i ++ tail).drop 16 = tail := rfl

/-! ### Both kinds -/

theorem wf_iff (i : SpanItem) : i.wf = true ↔ i.concurrency ≤ 127 ∧
    ∀ t, i.time = some t → t.ms.toNat < Config.dayMs := by
  rw [SpanItem.wf, Bool.and_eq_true, decide_eq_true_iff]
  refine and_congr_right fun _ => ?_
  cases i.time with
  | none => exact ⟨fun _ => nofun, fun _ => rfl⟩
  | some t => exact ⟨fun h x hx => by cases hx; exact of_decide_eq_true h, fun h => decide_eq_true (h t rfl)⟩

/-- An item's length and contents as its reader takes them (R87). -/
theorem readSpanItem_opened {i : SpanItem} {link : Option LinkKey} (hform : i.form = .opened link)
    (hwf : i.wf = true) (rest : List Byte) : readSpanItem (itemBytes i ++ rest) = some (some i, rest) := by
  obtain ⟨hconcurrency, hday⟩ := (wf_iff i).mp hwf
  obtain ⟨hkind, htime, hlink, hcontinued⟩ := itemDescriptor_opened hform
  have hbytes : itemBytes i ++ rest = commonBytes i ++ (timePart i.time ++ (linkPart link ++ rest)) := by
    rw [itemBytes_opened hform, List.append_assoc, List.append_assoc]
  have hhead : byteAt (commonBytes i ++ (timePart i.time ++ (linkPart link ++ rest))) 0 = itemDescriptor i :=
    rfl
  have hcommon := readSpanCommon_item hconcurrency hcontinued (timePart i.time ++ (linkPart link ++ rest))
  rw [hform] at hcommon
  have hlink' : (if link.isSome then
      some ({ owner := byteAt (linkPart link ++ rest) 0, lane := byteAt (linkPart link ++ rest) 1
              openSlice := word32 (linkPart link ++ rest) 4 } : LinkKey) else none) = link := by
    cases link with
    | none => rfl
    | some l =>
      have hopen : word32 (linkPart (some l) ++ rest) 4 = l.openSlice := word32_le32_append l.openSlice rest
      rw [hopen]
      rfl
  have hafter : (commonBytes i ++ (timePart i.time ++ (linkPart link ++ rest))).drop
      (16 + (if i.time.isSome then 8 else 0)) = linkPart link ++ rest := by
    rw [← List.drop_drop, drop_common]
    exact List.drop_left' (timePart_length i.time)
  have hend : (commonBytes i ++ (timePart i.time ++ (linkPart link ++ rest))).drop
      (16 + (if i.time.isSome then 8 else 0) + (if link.isSome then 8 else 0)) = rest := by
    rw [← List.drop_drop, hafter]
    exact List.drop_left' (linkPart_length link)
  have hlength : (commonBytes i ++ (timePart i.time ++ (linkPart link ++ rest))).length =
      16 + (if i.time.isSome then 8 else 0) + (if link.isSome then 8 else 0) + rest.length := by
    simp only [List.length_append, commonBytes_length, timePart_length, linkPart_length]
    omega
  rw [hbytes]
  unfold readSpanItem
  simp only [hhead, hkind, htime, hlink, decide_true, Bool.and_true, drop_common, readTime_part _ _ hday,
    hafter, hlink', hcommon, hlength, OfNat.one_ne_ofNat, if_false, Nat.add_zero, hend]
  exact if_neg (by omega)

theorem readSpanItem_closed {i : SpanItem} {e : Slice} {c : CloseCause} (hform : i.form = .closed e c)
    (hwf : i.wf = true) (rest : List Byte) : readSpanItem (itemBytes i ++ rest) = some (some i, rest) := by
  obtain ⟨hconcurrency, hday⟩ := (wf_iff i).mp hwf
  obtain ⟨hkind, htime, hcontinued⟩ := itemDescriptor_closed hform
  have hbytes : itemBytes i ++ rest = commonBytes i ++ (closePart e c ++ (timePart i.time ++ rest)) := by
    rw [itemBytes_closed hform, List.append_assoc, List.append_assoc]
  have hhead : byteAt (commonBytes i ++ (closePart e c ++ (timePart i.time ++ rest))) 0 = itemDescriptor i :=
    rfl
  have hcommon := readSpanCommon_item hconcurrency hcontinued (closePart e c ++ (timePart i.time ++ rest))
  rw [hform] at hcommon
  have hcause : causeOf (byteAt (commonBytes i ++ (closePart e c ++ (timePart i.time ++ rest))) 20) = some c :=
    causeOf_code c
  have hslice : word32 (commonBytes i ++ (closePart e c ++ (timePart i.time ++ rest))) 16 = e :=
    word32_le32 e
  have hclosed : (commonBytes i ++ (closePart e c ++ (timePart i.time ++ rest))).drop 24 =
      timePart i.time ++ rest := rfl
  have hend : (commonBytes i ++ (closePart e c ++ (timePart i.time ++ rest))).drop
      (24 + (if i.time.isSome then 8 else 0)) = rest := by
    rw [← List.drop_drop, hclosed]
    exact List.drop_left' (timePart_length i.time)
  have hlength : (commonBytes i ++ (closePart e c ++ (timePart i.time ++ rest))).length =
      24 + (if i.time.isSome then 8 else 0) + rest.length := by
    have hpart : (closePart e c).length = 8 := rfl
    simp only [List.length_append, commonBytes_length, timePart_length, hpart]
    omega
  rw [hbytes]
  unfold readSpanItem
  simp only [hhead, hkind, htime, OfNat.ofNat_ne_one, decide_false, Bool.and_false, hclosed,
    readTime_part _ _ hday, hcause, hslice, hcommon, hlength, if_true, Bool.false_eq_true, if_false,
    Nat.add_zero, Nat.reduceAdd, hend]
  exact if_neg (by omega)

theorem readSpanItem_itemBytes {i : SpanItem} (hwf : i.wf = true) (rest : List Byte) :
    readSpanItem (itemBytes i ++ rest) = some (some i, rest) := by
  cases hform : i.form with
  | opened link => exact readSpanItem_opened hform hwf rest
  | closed e c => exact readSpanItem_closed hform hwf rest

theorem itemBytes_length (i : SpanItem) : (itemBytes i).length = itemSize i := by
  cases hform : i.form with
  | opened link =>
    rw [itemBytes_opened hform, itemSize, hform]
    simp only [List.length_append, commonBytes_length, timePart_length, linkPart_length, Nat.add_assoc]
  | closed e c =>
    have hpart : (closePart e c).length = 8 := rfl
    rw [itemBytes_closed hform, itemSize, hform]
    simp only [List.length_append, commonBytes_length, timePart_length, hpart]
    omega

/-- Settles O54, kind by kind. -/
theorem spanItemRoundTrip : Obligations.SpanItemRoundTrip :=
  fun i rest hwf => ⟨itemBytes_length i, readSpanItem_itemBytes hwf rest⟩

end Sys2Proof.Machine
end


section
/-! SUPPORT. This station's window frame as another station reads it (R36 to R41, R51, Tables 11-1 to 11-8). -/

namespace Sys2Proof.Machine

/-! ### Things written one after another -/

/-- Things that read back one by one read back in a row. -/
theorem takeMany_flatMap {α β : Type} {f : List Byte → Option (β × List Byte)} {write : α → List Byte}
    {made : α → β} (xs : List α) (rest : List Byte)
    (hread : ∀ x ∈ xs, ∀ tail, f (write x ++ tail) = some (made x, tail)) :
    takeMany f xs.length (xs.flatMap write ++ rest) = some (xs.map made, rest) := by
  induction xs with
  | nil => rfl
  | cons x xs ih =>
    have hbytes : (x :: xs).flatMap write ++ rest = write x ++ (xs.flatMap write ++ rest) := by
      rw [List.flatMap_cons, List.append_assoc]
    have htail := ih fun y hy => hread y (List.mem_cons_of_mem _ hy)
    rw [hbytes, List.length_cons, takeMany, hread x List.mem_cons_self]
    dsimp only
    rw [htail]
    rfl

theorem flatMap_length {α : Type} (write : α → List Byte) (n : Nat) (xs : List α)
    (h : ∀ x ∈ xs, (write x).length = n) : (xs.flatMap write).length = n * xs.length := by
  induction xs with
  | nil => rfl
  | cons x xs ih =>
    rw [List.flatMap_cons, List.length_append, h x List.mem_cons_self,
      ih fun y hy => h y (List.mem_cons_of_mem _ hy), List.length_cons, Nat.mul_succ, Nat.add_comm]

/-! ### Blocks (Tables 11-3, 11-4) -/

/-- A block whose fields fit its record. -/
def Block.Fits (b : Block) : Prop := b.samples.length = 160 ∧ b.missing ≤ 160 ∧ b.level ≤ 16

theorem Block.bytes_length {b : Block} (h : b.samples.length = 160) : b.bytes.length = 332 := by
  simp only [Block.bytes, List.length_append, le32_length, sampleBytes_length, h, List.length_cons,
    List.length_nil]

theorem readBlock_bytes {b : Block} (hfits : b.Fits) (tail : List Byte) :
    readBlock (b.bytes ++ tail) = some (b, tail) := by
  obtain ⟨hsamples, hmissing, hlevel⟩ := hfits
  obtain ⟨hgap, hdead, hstepped, hunlocked⟩ := b.flagsByte_bits false
  have hlane : laneOf (byteAt (b.bytes ++ tail) 4).toNat = some b.lane := laneOf_byte b.lane
  have hcondition : conditionOf (byteAt (b.bytes ++ tail) 8) = some b.condition := conditionOf_code b.condition
  have hmissing' : (byteAt (b.bytes ++ tail) 5).toNat = b.missing := byte_toNat (n := b.missing) (by omega)
  have hlevel' : (byteAt (b.bytes ++ tail) 6).toNat = b.level := byte_toNat (n := b.level) (by omega)
  have hflags : byteAt (b.bytes ++ tail) 7 = b.flagsByte false := rfl
  have hslice : word32 (b.bytes ++ tail) 0 = b.slice := word32_le32 b.slice
  have hdrop : (b.bytes ++ tail).drop 12 = sampleBytes b.samples ++ tail := rfl
  have hhalves : halves 160 (sampleBytes b.samples ++ tail) = b.samples := by
    rw [← hsamples, halves_sampleBytes]
  have hend : (b.bytes ++ tail).drop 332 = tail := List.drop_left' (Block.bytes_length hsamples)
  have hlong : ¬ (b.bytes ++ tail).length < 332 := by
    rw [List.length_append, Block.bytes_length hsamples]
    omega
  unfold readBlock
  simp only [if_neg hlong, hlane, hcondition, hmissing', hlevel', hflags, hslice, hdrop, hhalves, hgap, hdead,
    hstepped, hunlocked, hend]
  exact if_pos ⟨hmissing, hlevel⟩

/-! ### Periodic items (Tables 11-8, 11-9) -/

/-- A periodic item with its body. -/
def periodicBytes (kind : PlanItem) (count : Nat) (body : List Byte) : List Byte :=
  periodicHeader kind count (4 + body.length) ++ body

theorem periodicBytes_length (kind : PlanItem) (count : Nat) (body : List Byte) :
    (periodicBytes kind count body).length = 4 + body.length := by
  rw [periodicBytes, List.length_append]
  rfl

/-- An item no longer than its length field can say is read as it was written. -/
theorem readSized_periodic (kind : PlanItem) (count : Nat) {body : List Byte} (tail : List Byte)
    (hfits : 4 + body.length < 65536) :
    readSized (periodicBytes kind count body ++ tail) = some (periodicBytes kind count body, tail) := by
  have hlen : (half16 (periodicBytes kind count body ++ tail) 2).toNat = 4 + body.length := by
    have hfield : half16 (periodicBytes kind count body ++ tail) 2 = BitVec.ofNat 16 (4 + body.length) :=
      half16_le16 (BitVec.ofNat 16 (4 + body.length)) []
    rw [hfield, BitVec.toNat_ofNat, Nat.mod_eq_of_lt hfits]
  have hbytes := periodicBytes_length kind count body
  unfold readSized
  simp only [hlen]
  rw [if_neg (by rw [List.length_append, hbytes]; omega), List.take_left' hbytes, List.drop_left' hbytes]

theorem rosterEntryBytes_length (e : RosterEntry) : (rosterEntryBytes e).length = 4 := by
  unfold rosterEntryBytes
  split <;> rfl

/-- Each kind of periodic item carries its own length (11.4). -/
theorem planBytes_eq (s : State) (p : PlanItem) :
    ∃ count body, s.planBytes p = periodicBytes p count body ∧
      (p = .spanBeacon → count = s.beaconEntries.length ∧ body = s.beaconEntries.flatMap itemBytes) := by
  cases p with
  | spanBeacon => exact ⟨_, _, rfl, fun _ => ⟨rfl, rfl⟩⟩
  | rosterView =>
    refine ⟨16, (allIds.map s.entry).flatMap rosterEntryBytes, ?_, nofun⟩
    have hlen : ((allIds.map s.entry).flatMap rosterEntryBytes).length = 64 :=
      flatMap_length rosterEntryBytes 4 _ fun e _ => rosterEntryBytes_length e
    rw [periodicBytes, hlen]
    rfl
  | mirrorRuns =>
    refine ⟨s.rings.runs.length, s.rings.runs.flatMap runBytes, ?_, nofun⟩
    have hlen : (s.rings.runs.flatMap runBytes).length = 12 * s.rings.runs.length :=
      flatMap_length runBytes 12 _ fun _ _ => rfl
    rw [periodicBytes, hlen]
    rfl
  | counterReport =>
    refine ⟨0, (s.planBytes .counterReport).drop 4, ?_, nofun⟩
    rfl

/-- What a periodic item gives its reader: a beacon's entries, and nothing for another kind. -/
def State.planEntries (s : State) (p : PlanItem) : List SpanItem :=
  if p = .spanBeacon then s.beaconEntries else []

theorem itemSize_le (i : SpanItem) : 16 ≤ itemSize i ∧ itemSize i ≤ 32 := by
  unfold itemSize
  cases i.form with
  | opened l => dsimp only; split <;> split <;> omega
  | closed e c => dsimp only; split <;> omega

theorem items_length (items : List SpanItem) :
    (items.flatMap itemBytes).length = (items.map itemSize).sum := by
  rw [List.length_flatMap]
  congr 1
  exact List.map_congr_left fun i _ => itemBytes_length i

theorem sum_itemSize_le (items : List SpanItem) : 16 * items.length ≤ (items.map itemSize).sum ∧
    (items.map itemSize).sum ≤ 32 * items.length := by
  induction items with
  | nil => exact ⟨Nat.le_refl _, Nat.le_refl _⟩
  | cons i items ih =>
    have := itemSize_le i
    rw [List.map_cons, List.sum_cons, List.length_cons]
    omega

/-- This station's beacon entries are of the OPEN form (R87). -/
theorem beaconEntries_open {s : State} {i : SpanItem} (hi : i ∈ s.beaconEntries) : i.isOpen = true := by
  obtain ⟨e, he, rfl⟩ := List.mem_map.mp hi
  obtain ⟨l, -, hl⟩ := List.mem_flatMap.mp he
  obtain ⟨hopen, -⟩ := of_decide_eq_true (List.mem_filter.mp hl).2
  simp only [SpanEntry.item, SpanItem.isOpen, hopen]

theorem planCode_eq_one (p : PlanItem) : planCode p = 1 ↔ p = .spanBeacon := by
  cases p <;> decide

theorem readPeriodic_planBytes {s : State} (p : PlanItem) (tail : List Byte)
    (hwf : ∀ i ∈ s.beaconEntries, i.wf = true) (hfits : (s.planBytes p).length ≤ 3560) :
    readPeriodic (s.planBytes p ++ tail) = some (s.planEntries p, tail) := by
  obtain ⟨count, body, hbytes, hbeacon⟩ := planBytes_eq s p
  rw [hbytes] at hfits ⊢
  rw [periodicBytes_length] at hfits
  have hsized := readSized_periodic p count tail (body := body) (by omega)
  have hcode : byteAt (periodicBytes p count body) 0 = planCode p := rfl
  have hcount : byteAt (periodicBytes p count body) 1 = byte count := rfl
  have hbody : (periodicBytes p count body).drop 4 = body := rfl
  unfold readPeriodic
  simp only [hsized, hcode, hcount, hbody, planCode_eq_one, State.planEntries]
  by_cases hkind : p = .spanBeacon
  · obtain ⟨hcount, hbody⟩ := hbeacon hkind
    have hmany : takeMany readSpanItem s.beaconEntries.length body = some (s.beaconEntries.map some, []) := by
      have := takeMany_flatMap (f := readSpanItem) (write := itemBytes) (made := some) s.beaconEntries []
        fun i hi tail => readSpanItem_itemBytes (hwf i hi) tail
      rwa [List.append_nil, ← hbody] at this
    have hfew : s.beaconEntries.length < 256 := by
      have := (sum_itemSize_le s.beaconEntries).1
      rw [hbody, items_length] at hfits
      omega
    have hopen : (s.beaconEntries.map some).filterMap id = s.beaconEntries := by
      rw [List.filterMap_map]
      exact List.filterMap_some
    rw [if_pos hkind, if_pos hkind, hcount, byte_toNat hfew, hmany]
    dsimp only
    rw [hopen, List.filter_eq_self.mpr fun i hi => beaconEntries_open hi]
  · rw [if_neg hkind, if_neg hkind]

/-! ### The periodic items placed (R41) -/

theorem placeItems_sublist (size : PlanItem → Nat) (due : List PlanItem) (room : Nat) :
    (placeItems size due room).Sublist due := by
  induction due generalizing room with
  | nil => exact .refl _
  | cons p due ih =>
    unfold placeItems
    split
    · exact (ih _).cons_cons p
    · exact (ih _).cons p

theorem placeItems_size (size : PlanItem → Nat) (due : List PlanItem) (room : Nat) :
    ((placeItems size due room).map size).sum ≤ room := by
  induction due generalizing room with
  | nil => exact Nat.zero_le _
  | cons p due ih =>
    unfold placeItems
    split
    · next h =>
      have := ih (room - size p)
      rw [List.map_cons, List.sum_cons]
      omega
    · exact ih room

theorem nodup_planItem_length {ps : List PlanItem} (h : ps.Nodup) : ps.length ≤ 4 := by
  have hsub : ps ⊆ planItems := fun p _ => by cases p <;> decide
  exact (List.subperm_of_subset h hsub).length_le

/-! ### The frame (R37, R38) -/

/-- The sections of the frame behind its header. -/
theorem windowProper_eq (s : State) : s.windowProper =
    headerBytes s.control.id (s.activity.getD .run) s.clock.index (s.control.join.getD 0)
      s.control.digest s.control.condition s.roster.mirror (decide (s.clock.discipline = .locked))
      s.claims s.notices.dropped s.frameBlocks.length s.frameItems.length s.frameNotices.length
      s.framePlan.length ++
    (s.frameBlocks.flatMap Block.bytes ++ (s.frameItems.flatMap itemBytes ++
      (s.frameNotices.flatMap Notice.bytes ++ s.framePlan.flatMap s.planBytes))) := by
  simp only [State.windowProper, List.append_assoc]

theorem header_bits : ∀ lock claim : Bool,
    (flagBit 8 lock 0 ||| flagBit 8 claim 1).getLsbD 0 = lock ∧
    (flagBit 8 lock 0 ||| flagBit 8 claim 1).getLsbD 1 = claim := by decide

theorem idCode_read (k : Option StationId) :
    (if idCode k = 0xFF then none else some (idCode k)) = k.map fun k => byte k.val := by
  cases k with
  | none => rfl
  | some k =>
    have hne : byte k.val ≠ 0xFF := fun h => by
      have hval := (byte_eq_255_iff _).mp h
      rw [byte_toNat (by omega)] at hval
      omega
    exact if_neg hne

/-- The header's fields read back (R37). -/
theorem readHeader_headerBytes (id : StationId) (a : Activity) (index join : Slice) (digest : Word)
    (c : Condition) (mirror : Option StationId) (lock claim : Bool) (dropped blocks spans notices periodic : Nat)
    (tail : List Byte) :
    readHeader (headerBytes id a index join digest c mirror lock claim dropped blocks spans notices periodic
        ++ tail) = some {
      sender := id, kind := .capture, activity := some a, index := index, join := join, digest := digest
      condition := c, mirror := mirror.map fun k => byte k.val, lock := lock, claim := claim } := by
  generalize hbs : headerBytes id a index join digest c mirror lock claim dropped blocks spans notices periodic
    ++ tail = bs
  have hsender : stationOf (byteAt bs 1).toNat = some id := by rw [← hbs]; exact stationOf_byte id
  have hkind : peerKindOf (byteAt bs 2) = some .capture := by rw [← hbs]; rfl
  have hactivity : activityOf (byteAt bs 3) = some (some a) := by
    rw [← hbs]
    exact activityOf_code (some a)
  have hcondition : conditionOf (byteAt bs 0x10) = some c := by rw [← hbs]; exact conditionOf_code c
  have hindex : word32 bs 4 = index := by rw [← hbs]; exact word32_le32 index
  have hjoin : word32 bs 8 = join := by rw [← hbs]; exact word32_le32 join
  have hdigest : word32 bs 0x0C = digest := by rw [← hbs]; exact word32_le32 digest
  have hmirror : byteAt bs 0x11 = idCode mirror := by rw [← hbs]; rfl
  have hflags : byteAt bs 0x12 = flagBit 8 lock 0 ||| flagBit 8 claim 1 := by rw [← hbs]; rfl
  obtain ⟨hlock, hclaim⟩ := header_bits lock claim
  unfold readHeader
  simp only [hsender, hkind, hactivity, hcondition, hindex, hjoin, hdigest, hmirror, hflags, hlock, hclaim,
    idCode_read]
  exact if_neg fun h => nomatch h.2

end Sys2Proof.Machine
end


section
/-! SUPPORT. Another station accepts this station's window frame (R36 to R38, R51, R182). -/

namespace Sys2Proof.Machine

/-- What another station accepts of this station's frame. -/
def State.ownFrame (s : State) (a : Activity) : WindowFrame :=
  { header := {
      sender := s.control.id, kind := .capture, activity := some a
      index := s.clock.index, join := s.control.join.getD 0, digest := s.control.digest
      condition := s.control.condition, mirror := s.roster.mirror.map (fun k => byte k.val)
      lock := decide (s.clock.discipline = .locked), claim := s.claims }
    blocks := s.frameBlocks, spans := s.frameItems, beacons := s.framePlan.map s.planEntries, requests := [] }

/-- What the frame carries fits it. -/
structure State.FrameFits (s : State) : Prop where
  blocks : s.frameBlocks.length ≤ 8
  order : blocksInOrder s.frameBlocks = true
  fits : ∀ b ∈ s.frameBlocks, b.Fits
  outbox : ∀ i ∈ s.spans.outbox, i.wf = true
  beacon : ∀ i ∈ s.beaconEntries, i.wf = true
  due : s.link.due.Nodup

section Fits

variable {s : State} (hs : s.FrameFits)

include hs

theorem blockBytes_length : (s.frameBlocks.flatMap Block.bytes).length = 332 * s.frameBlocks.length :=
  flatMap_length Block.bytes 332 _ fun b hb => Block.bytes_length (hs.fits b hb).1

theorem framePlan_length : s.framePlan.length ≤ 4 :=
  nodup_planItem_length ((placeItems_sublist _ _ _).nodup hs.due)

omit hs in
theorem noticeBytes_length : (s.frameNotices.flatMap Notice.bytes).length = 12 * s.frameNotices.length :=
  flatMap_length Notice.bytes 12 _ fun _ _ => rfl

omit hs in
theorem frameItems_length : s.frameItems.length ≤ 24 := List.length_take_le _ _

omit hs in
theorem frameNotices_length : s.frameNotices.length ≤ 4 := List.length_take_le _ _

/-- The mandatory sections leave room within the frame's limit. -/
theorem mandatory_le : mandatorySize s.frameBlocks s.frameItems s.frameNotices ≤ 3560 := by
  have hblocks := hs.blocks
  have hitems := frameItems_length (s := s)
  have hnotices := frameNotices_length (s := s)
  have hsum := (sum_itemSize_le s.frameItems).2
  unfold mandatorySize
  omega

omit hs in
theorem planBytes_sum : (s.framePlan.flatMap s.planBytes).length ≤
    3560 - mandatorySize s.frameBlocks s.frameItems s.frameNotices := by
  rw [List.length_flatMap]
  exact placeItems_size (fun p => (s.planBytes p).length) s.link.due _

omit hs in
theorem planBytes_fits {p : PlanItem} (hp : p ∈ s.framePlan) : (s.planBytes p).length ≤ 3560 := by
  have hsum := planBytes_sum (s := s)
  have hone : (s.planBytes p).length ≤ (s.framePlan.map fun p => (s.planBytes p).length).sum :=
    List.single_le_sum (fun _ _ => Nat.zero_le _) _ (List.mem_map_of_mem hp)
  rw [List.length_flatMap] at hsum
  omega

theorem windowProper_length : s.windowProper.length + 4 =
    mandatorySize s.frameBlocks s.frameItems s.frameNotices + (s.framePlan.flatMap s.planBytes).length := by
  have hheader (a b c d e f g h i j k l m n : _) :
      (headerBytes a b c d e f g h i j k l m n).length = 48 := rfl
  rw [windowProper_eq]
  simp only [List.length_append, hheader, blockBytes_length hs, items_length, noticeBytes_length, mandatorySize]
  omega

theorem frame_length : 52 ≤ (s.windowProper ++ le32 (crc32 s.windowProper)).length ∧
    (s.windowProper ++ le32 (crc32 s.windowProper)).length ≤ 3560 := by
  have hlen := windowProper_length hs
  have hsum := planBytes_sum (s := s)
  have hmandatory := mandatory_le hs
  have hleast : 52 ≤ mandatorySize s.frameBlocks s.frameItems s.frameNotices := by
    unfold mandatorySize
    omega
  rw [List.length_append, le32_length]
  omega

/-- The sections behind the header read back one after another. -/
theorem readWindow_ownFrame {a : Activity} (hactivity : s.activity = some a) :
    readWindow (s.windowProper ++ le32 (crc32 s.windowProper)) = some (s.ownFrame a) := by
  obtain ⟨hshort, hlong⟩ := frame_length hs
  have hcrc := crcGood_append_crc32 s.windowProper
  have hplan := framePlan_length hs
  have hitems := frameItems_length (s := s)
  have hnotices := frameNotices_length (s := s)
  have hblocks := hs.blocks
  have hheader : readHeader (s.windowProper ++ le32 (crc32 s.windowProper)) = some (s.ownFrame a).header := by
    rw [windowProper_eq, List.append_assoc, hactivity]
    exact readHeader_headerBytes _ _ _ _ _ _ _ _ _ _ _ _ _ _ _
  have hproper : (s.windowProper ++ le32 (crc32 s.windowProper)).take
      ((s.windowProper ++ le32 (crc32 s.windowProper)).length - 4) = s.windowProper := by
    rw [List.length_append, le32_length, Nat.add_sub_cancel, List.take_left]
  have hsections : s.windowProper.drop 48 = s.frameBlocks.flatMap Block.bytes ++
      (s.frameItems.flatMap itemBytes ++ (s.frameNotices.flatMap Notice.bytes ++
        s.framePlan.flatMap s.planBytes)) := by
    rw [windowProper_eq]
    rfl
  have hcounts : (byteAt (s.windowProper ++ le32 (crc32 s.windowProper)) 0x14).toNat = s.frameBlocks.length ∧
      (byteAt (s.windowProper ++ le32 (crc32 s.windowProper)) 0x15).toNat = s.frameItems.length ∧
      (byteAt (s.windowProper ++ le32 (crc32 s.windowProper)) 0x16).toNat = s.frameNotices.length ∧
      (byteAt (s.windowProper ++ le32 (crc32 s.windowProper)) 0x17).toNat = s.framePlan.length ∧
      (half16 (s.windowProper ++ le32 (crc32 s.windowProper)) 0x18).toNat = 0 := by
    rw [windowProper_eq]
    exact ⟨byte_toNat (n := s.frameBlocks.length) (by omega), byte_toNat (n := s.frameItems.length) (by omega),
      byte_toNat (n := s.frameNotices.length) (by omega), byte_toNat (n := s.framePlan.length) (by omega),
      by rw [half16_toNat]; rfl⟩
  obtain ⟨hnBlocks, hnItems, hnNotices, hnPlan, hnRequests⟩ := hcounts
  generalize s.windowProper ++ le32 (crc32 s.windowProper) = bs at *
  have hreadBlocks := takeMany_flatMap (f := readBlock) (write := Block.bytes) (made := id) s.frameBlocks
    (s.frameItems.flatMap itemBytes ++ (s.frameNotices.flatMap Notice.bytes ++
      s.framePlan.flatMap s.planBytes)) fun b hb tail => readBlock_bytes (hs.fits b hb) tail
  have hreadItems := takeMany_flatMap (f := readSpanItem) (write := itemBytes) (made := some) s.frameItems
    (s.frameNotices.flatMap Notice.bytes ++ s.framePlan.flatMap s.planBytes)
    fun i hi tail => readSpanItem_itemBytes (hs.outbox i (List.mem_of_mem_take hi)) tail
  have hreadPlan := takeMany_flatMap (f := readPeriodic) (write := s.planBytes) (made := s.planEntries)
    s.framePlan [] fun p hp tail => readPeriodic_planBytes p tail hs.beacon (planBytes_fits hp)
  have hnoticesDrop : (s.frameNotices.flatMap Notice.bytes ++ s.framePlan.flatMap s.planBytes).drop
      (12 * s.frameNotices.length) = s.framePlan.flatMap s.planBytes := List.drop_left' noticeBytes_length
  have hnoticesLen : ¬ (s.frameNotices.flatMap Notice.bytes ++ s.framePlan.flatMap s.planBytes).length <
      12 * s.frameNotices.length := by
    rw [List.length_append, noticeBytes_length]
    omega
  have hgood : ¬ (bs.length < 52 ∨ Config.windowLimit < bs.length ∨ crcGood bs = false ∨
      8 < s.frameBlocks.length ∨ 24 < s.frameItems.length ∨ 4 < s.frameNotices.length ∨
      4 < s.framePlan.length) := by
    have hlimit : Config.windowLimit = 3560 := rfl
    rw [hcrc, hlimit]
    simp only [Bool.true_eq_false, false_or, not_or, Nat.not_lt]
    exact ⟨hshort, hlong, hblocks, hitems, hnotices, hplan⟩
  have hspans : (s.frameItems.map some).filterMap id = s.frameItems := by
    rw [List.filterMap_map]
    exact List.filterMap_some
  rw [List.append_nil] at hreadPlan
  rw [List.map_id] at hreadBlocks
  unfold readWindow
  simp only [hnBlocks, hnItems, hnNotices, hnPlan, hnRequests, if_neg hgood, hheader, hproper, hsections,
    hreadBlocks, hs.order, if_true, hreadItems, if_neg hnoticesLen, hnoticesDrop, hreadPlan, takeMany, hspans]
  rfl

end Fits

theorem activity_of_active {s : State} (hactive : s.active = true) : ∃ a, s.activity = some a := by
  obtain hrun | hidle := (active_iff s).mp hactive
  · exact ⟨.run, by rw [State.activity, hrun]⟩
  · exact ⟨.idle, by rw [State.activity, hidle]⟩

/-- Another station takes the frame as a window frame. -/
theorem judgeFrame_ownFrame {s : State} (hs : s.FrameFits) {a : Activity} (hactivity : s.activity = some a)
    {j : StationId} (hother : j ≠ s.control.id) :
    judgeFrame j (s.windowProper ++ le32 (crc32 s.windowProper)) = .windowFrame (s.ownFrame a) := by
  have hkind : byteAt (s.windowProper ++ le32 (crc32 s.windowProper)) 0 = 1 := by
    rw [windowProper_eq]
    rfl
  unfold judgeFrame
  rw [if_pos hkind, readWindow_ownFrame hs hactivity]
  exact if_neg fun h => hother h.symm

/-- Settles O55: every section of the frame reads back as it was written. -/
theorem ownFrameIsAccepted : Obligations.OwnFrameIsAccepted := by
  intro s j hother hactive hblocks horder hfits houtbox hbeacon hdue
  obtain ⟨a, hactivity⟩ := activity_of_active hactive
  have hs : s.FrameFits := ⟨hblocks, horder, hfits, houtbox, hbeacon, hdue⟩
  have hnone (p : PlanItem) (hp : p ≠ .spanBeacon) : s.planEntries p = [] := if_neg hp
  have hentries : s.planEntries .spanBeacon = s.beaconEntries := if_pos rfl
  refine ⟨s.ownFrame a, judgeFrame_ownFrame hs hactivity hother, by rw [hactivity]; rfl, rfl, rfl,
    fun hplaced => ⟨?_, fun es hes => ?_⟩, fun hnot es hes => ?_, rfl⟩
  · rw [← hentries]
    exact List.mem_map_of_mem hplaced
  · obtain ⟨p, -, rfl⟩ := List.mem_map.mp hes
    by_cases hp : p = .spanBeacon
    · rw [hp]
      exact .inl hentries
    · exact .inr (hnone p hp)
  · obtain ⟨p, hp, rfl⟩ := List.mem_map.mp hes
    exact hnone p fun h => hnot (h ▸ hp)

end Sys2Proof.Machine
end


section
/-! SUPPORT. The line code: the half-cells of a row of bits, what the receiver reads from them, and silence
(R34). -/

namespace Sys2Proof.Machine

/-! ### The half-cells of a bit -/

/-- The two half-cells of a row's bit: the cell begins with a change of the level before it. -/
theorem driveBits_cell (x : LineLevel) {bits : List Bool} {n : Nat} {bit : Bool}
    (hbit : bits[n]? = some bit) : ∃ p : LineLevel,
      (driveBits x bits)[2 * n]? = some (bitCell p bit).1 ∧
      (driveBits x bits)[2 * n + 1]? = some (bitCell p bit).2 ∧
      (n = 0 → p = x) ∧ ∀ m, m + 1 = 2 * n → (driveBits x bits)[m]? = some p := by
  induction bits generalizing x n with
  | nil => simp at hbit
  | cons b bs ih =>
    cases n with
    | zero =>
      obtain rfl : b = bit := by simpa using hbit
      exact ⟨x, rfl, rfl, fun _ => rfl, fun m hm => by omega⟩
    | succ k =>
      obtain ⟨p, hfirst, hsecond, hstart, hbefore⟩ := ih (bitCell x b).2 (n := k) (by simpa using hbit)
      refine ⟨p, hfirst, hsecond, nofun, fun m hm => ?_⟩
      cases k with
      | zero =>
        obtain rfl : m = 1 := by omega
        rw [hstart rfl]
        rfl
      | succ j =>
        obtain ⟨i, rfl⟩ : ∃ i, m = i + 2 := ⟨m - 2, by omega⟩
        exact hbefore i (by omega)

/-- The level in a cell's second half differs from that in its first for a 1 bit alone. -/
theorem bitCell_changes (p : LineLevel) (bit : Bool) :
    bit = true ↔ (bitCell p bit).1 ≠ (bitCell p bit).2 := by
  cases p <;> cases bit <;> decide

theorem bitCell_driven (p : LineLevel) (bit : Bool) :
    (bitCell p bit).1 ≠ .zero ∧ (bitCell p bit).2 ≠ .zero := by
  cases p <;> cases bit <;> decide

theorem bitCell_begins (p : LineLevel) (bit : Bool) : p ≠ (bitCell p bit).1 := (changed_ne p).symm

/-- Every half-cell of a frame is driven. -/
theorem driveBits_driven {x d : LineLevel} {bits : List Bool} (hd : d ∈ driveBits x bits) : d ≠ .zero := by
  induction bits generalizing x with
  | nil => exact nomatch hd
  | cons b bs ih =>
    obtain ⟨hfirst, hsecond⟩ := bitCell_driven x b
    rw [driveBits, List.mem_cons, List.mem_cons] at hd
    obtain rfl | rfl | hd := hd
    · exact hfirst
    · exact hsecond
    · exact ih hd

/-! ### The bits of the bytes -/

/-- A bit of a row of bytes, least significant first. -/
theorem byteBits_getElem {bytes : List Byte} {i k : Nat} {b : Byte} (hb : bytes[i]? = some b) (hk : k < 8) :
    (bytes.flatMap byteBits)[8 * i + k]? = some (b.getLsbD k) := by
  induction bytes generalizing i with
  | nil => simp at hb
  | cons a bytes ih =>
    rw [List.flatMap_cons]
    cases i with
    | zero =>
      obtain rfl : a = b := by simpa using hb
      rw [List.getElem?_append_left (by rw [byteBits_length]; omega)]
      simp [byteBits, hk]
    | succ i =>
      rw [List.getElem?_append_right (by rw [byteBits_length]; omega), byteBits_length,
        show 8 * (i + 1) + k - 8 = 8 * i + k by omega]
      exact ih (by simpa using hb)

theorem lineLevels_length (bytes : List Byte) : (lineLevels bytes).length = 16 * bytes.length := by
  have hbits : (bytes.flatMap byteBits).length = 8 * bytes.length := by
    induction bytes with
    | nil => rfl
    | cons b bytes ih => rw [List.flatMap_cons, List.length_append, byteBits_length, ih, List.length_cons]; omega
  rw [lineLevels, driveBits_length, hbits]
  omega

/-- The two half-cells of a frame's bit (R34). -/
theorem lineLevels_cell {bytes : List Byte} {i k : Nat} {b : Byte} (hb : bytes[i]? = some b) (hk : k < 8) :
    ∃ x y, (lineLevels bytes)[16 * i + 2 * k]? = some x ∧
      (lineLevels bytes)[16 * i + 2 * k + 1]? = some y ∧ x ≠ .zero ∧ y ≠ .zero ∧
      (b.getLsbD k = true ↔ x ≠ y) ∧
      ∀ (n : Nat) (z : LineLevel), n + 1 = 16 * i + 2 * k → (lineLevels bytes)[n]? = some z → z ≠ x := by
  obtain ⟨p, hfirst, hsecond, -, hbefore⟩ := driveBits_cell .zero (byteBits_getElem hb hk)
  have hplace : 2 * (8 * i + k) = 16 * i + 2 * k := by omega
  rw [hplace] at hfirst hsecond hbefore
  obtain ⟨hx, hy⟩ := bitCell_driven p (b.getLsbD k)
  refine ⟨_, _, hfirst, hsecond, hx, hy, bitCell_changes p _, fun n z hn hz => ?_⟩
  obtain rfl : p = z := Option.some.inj ((hbefore n hn).symm.trans hz)
  exact bitCell_begins p _

/-! ### What the receiver reads -/

theorem readBits_driveBits (x : LineLevel) (bits : List Bool) : readBits (driveBits x bits) = bits := by
  induction bits generalizing x with
  | nil => rfl
  | cons b bs ih =>
    have hbit : decide ((bitCell x b).1 ≠ (bitCell x b).2) = b := by
      rw [← Bool.coe_iff_coe, decide_eq_true_iff]
      exact (bitCell_changes x b).symm
    rw [driveBits, readBits, ih, hbit]

/-- Eight flags in a byte read back as that byte's bits. -/
theorem flags_byte : ∀ b : Byte, flagBit 8 (b.getLsbD 0) 0 ||| flagBit 8 (b.getLsbD 1) 1 |||
    flagBit 8 (b.getLsbD 2) 2 ||| flagBit 8 (b.getLsbD 3) 3 ||| flagBit 8 (b.getLsbD 4) 4 |||
    flagBit 8 (b.getLsbD 5) 5 ||| flagBit 8 (b.getLsbD 6) 6 ||| flagBit 8 (b.getLsbD 7) 7 = b := by
  decide +kernel

theorem bitsBytes_byteBits (bytes : List Byte) : bitsBytes (bytes.flatMap byteBits) = bytes := by
  induction bytes with
  | nil => rfl
  | cons b bytes ih =>
    rw [List.flatMap_cons]
    change _ :: bitsBytes (bytes.flatMap byteBits) = _
    rw [ih, flags_byte]

theorem readLevels_lineLevels (bytes : List Byte) : readLevels (lineLevels bytes) = bytes := by
  rw [readLevels, lineLevels, readBits_driveBits, bitsBytes_byteBits]

/-! ### Silence -/

/-- After a level the row of bits changes it at once. -/
theorem steadyRun_driveBits (x : LineLevel) (bits : List Bool) : steadyRun x (driveBits x bits) = 0 := by
  cases bits with
  | nil => rfl
  | cons b bs => exact if_neg (changed_ne x)

theorem driveBits_noSilence (x : LineLevel) (bits : List Bool) : readsSilence (driveBits x bits) = false := by
  induction bits generalizing x with
  | nil => rfl
  | cons b bs ih =>
    have hhalf (y : LineLevel) : steadyRun y ((bitCell x b).2 :: driveBits (bitCell x b).2 bs) ≤ 1 := by
      rw [steadyRun]
      split
      · next h => rw [← h, steadyRun_driveBits]
      · exact Nat.zero_le 1
    have hfirst := hhalf (bitCell x b).1
    simp only [driveBits, readsSilence, ih, steadyRun_driveBits, Bool.or_false, Bool.or_eq_false_iff,
      decide_eq_false_iff_not]
    exact ⟨by omega, by decide⟩

theorem steadyRun_replicate (x : LineLevel) (n : Nat) (b : List LineLevel) :
    n ≤ steadyRun x (List.replicate n x ++ b) := by
  induction n with
  | zero => exact Nat.zero_le _
  | succ n ih =>
    rw [List.replicate_succ, List.cons_append, steadyRun, if_pos rfl]
    exact Nat.succ_le_succ ih

/-- Five half-cells of one level are read as silence. -/
theorem readsSilence_replicate (x : LineLevel) (a b : List LineLevel) :
    readsSilence (a ++ List.replicate 5 x ++ b) = true := by
  induction a with
  | nil =>
    have hrun := steadyRun_replicate x 4 b
    rw [List.nil_append, List.replicate_succ, List.cons_append, readsSilence, decide_eq_true hrun]
    rfl
  | cons y a ih => rw [List.cons_append, List.cons_append, readsSilence, ih, Bool.or_true]

/-! ### Two peers on the line -/

theorem mixed_of_ne {x y : LineLevel} (hx : x ≠ .zero) (hy : y ≠ .zero) (hne : x ≠ y) : mixed x y = .zero := by
  revert hx hy hne
  cases x <;> cases y <;> decide

theorem mixed_self (x : LineLevel) : mixed x x = x := by cases x <;> rfl

/-- A peer that drives the line together with another reads a mismatch in the half-cell in which the two
first differ. -/
theorem mismatch_of_mixed {a b : List LineLevel} {i : Nat} {x y : LineLevel} (ha : a[i]? = some x)
    (hb : b[i]? = some y) (hx : x ≠ .zero) (hy : y ≠ .zero) (hne : x ≠ y)
    (hsame : ∀ j, j < i → a[j]? = b[j]?) :
    (List.zipWith mixed a b)[i]? = some .zero ∧
    mismatchFrom 0 a (List.zipWith mixed a b) = some i ∧
    mismatchFrom 0 b (List.zipWith mixed a b) = some i := by
  have hline : (List.zipWith mixed a b)[i]? = some .zero := by
    simp only [List.getElem?_zipWith, ha, hb, mixed_of_ne hx hy hne]
  have hbefore (j : Nat) (hj : j < i) : a[j]? = (List.zipWith mixed a b)[j]? := by
    obtain ⟨z, hz⟩ : ∃ z, a[j]? = some z := by
      obtain ⟨hi, -⟩ := List.getElem?_eq_some_iff.mp ha
      exact ⟨a[j], List.getElem?_eq_getElem (hj.trans hi)⟩
    simp only [List.getElem?_zipWith, ← hsame j hj, hz, mixed_self]
  refine ⟨hline, ?_, ?_⟩
  · rw [mismatchFrom_eq 0 a _ i x .zero ha hline hx hbefore, Nat.zero_add]
  · rw [mismatchFrom_eq 0 b _ i y .zero hb hline hy fun j hj => (hsame j hj).symm.trans (hbefore j hj),
      Nat.zero_add]

/-- The bytes driven before the first half-cell that reads otherwise than driven. -/
theorem bytesBeforeMismatch_eq {bytes : List Byte} {read : List LineLevel} {i : Nat} {d r : LineLevel}
    (hd : (lineLevels bytes)[i]? = some d) (hr : read[i]? = some r) (hne : d ≠ r)
    (hsame : ∀ j : Nat, j < i → (lineLevels bytes)[j]? = read[j]?) :
    bytesBeforeMismatch bytes read = some (i / 16) := by
  rw [bytesBeforeMismatch, mismatchFrom_eq 0 _ _ i d r hd hr hne hsame, Nat.zero_add]

theorem bytesBeforeMismatch_none {bytes : List Byte} {read : List LineLevel}
    (hsame : ∀ (i : Nat) (d r : LineLevel), (lineLevels bytes)[i]? = some d → read[i]? = some r → d = r) :
    bytesBeforeMismatch bytes read = none := by
  rw [bytesBeforeMismatch, (mismatchFrom_eq_none 0 _ _).mpr hsame]

end Sys2Proof.Machine
end


section
/-! SUPPORT. Reception (R50, R51): the lead-in, a header that fixes too great a length, silence within a
frame, and what is rejected at a frame's end. -/

namespace Sys2Proof.Machine

/-! ### The lead-in found -/

theorem countsPass_high {s : State} (n : Nat) (hreset : s.resetN = true) :
    s.countsPass n = { s with clock := s.clock.pass n, store := s.store.pass n } := if_pos hreset

/-- LEAD_IN_FOUND while RESET_N is high. -/
theorem exec_leadInFound (wait ago : Nat) {s : State} (hreset : s.resetN = true) :
    exec (.leadInFound wait ago) s = .next ((s.countsPass wait).leadInFound ago) := by
  change Host.Outcome.next _ = _
  rw [whenRunning_high (by rw [countsPass_high wait hreset]; exact hreset)]

theorem leadInFound_of_instant {s : State} {ago : Nat} {l : LeadIn} (hrx : s.link.rx = .hunting)
    (hinstant : s.clock.instantAgo ago = some l) : s.leadInFound ago =
      s.withLink { s.link with rx := .receiving, leadIn := some l } := by
  simp only [State.leadInFound, hrx, hinstant]

theorem leadInFound_of_none {s : State} {ago : Nat} (hinstant : s.clock.instantAgo ago = none) :
    s.leadInFound ago = s := by
  simp only [State.leadInFound, hinstant]
  split <;> rfl

theorem leadInFound_of_rx {s : State} (ago : Nat) (hrx : s.link.rx ≠ .hunting) :
    s.leadInFound ago = s := by
  unfold State.leadInFound
  split
  · next h => exact absurd h hrx
  · rfl
  · rfl

/-- The pattern began in the slice in progress (R50). -/
theorem instantAgo_of_le {c : Clock} {ago : Nat} (h : ago ≤ c.position) : c.instantAgo ago =
    some { slice := c.index, count := c.position - ago, boundaries := 0 } := if_pos h

/-- The pattern began before the slice in progress: in the slice that ended last, or before the clock. -/
theorem instantAgo_of_lt {c : Clock} {ago : Nat} (h : c.position < ago) :
    (∀ t, c.lastIndex = some t → ago ≤ c.lastLen + c.position → c.instantAgo ago =
      some { slice := t, count := c.lastLen + c.position - ago, boundaries := 1 }) ∧
    (c.lastIndex = none ∨ c.lastLen + c.position < ago → c.instantAgo ago = none) := by
  unfold Clock.instantAgo
  rw [if_neg (by omega)]
  constructor
  · intro t ht hago
    simp only [ht]
    rw [if_pos hago]
  · rintro (hnone | hago)
    · simp only [hnone]
    · split
      · rfl
      · rw [if_neg (by omega)]

/-! ### The header's length -/

theorem headerLeastLength_window {h : List Byte} (hkind : byteAt h 0 = 1) : headerLeastLength h =
    52 + 332 * (byteAt h 0x14).toNat + 16 * (byteAt h 0x15).toNat + 12 * (byteAt h 0x16).toNat
      + 4 * (byteAt h 0x17).toNat + 4 * (half16 h 0x18).toNat := by
  rw [headerLeastLength, if_pos hkind]
  omega

theorem headerLeastLength_recall {h : List Byte} (hkind : byteAt h 0 = 2) : headerLeastLength h =
    20 + max (8 * (half16 h 2).toNat) (word32 h 8).toNat := by
  rw [headerLeastLength, if_neg (by rw [hkind]; decide), if_pos hkind]
  omega

theorem headerTooLong_iff (h : List Byte) : headerTooLong h = true ↔
    (byteAt h 0 = 1 ∧ 3560 < headerLeastLength h) ∨ (byteAt h 0 = 2 ∧ 19960 < headerLeastLength h) := by
  unfold headerTooLong
  split
  · next hkind =>
    rw [decide_eq_true_iff]
    exact ⟨fun hlong => .inl ⟨hkind, hlong⟩,
      fun hlong => hlong.elim And.right fun hother => absurd (hkind.symm.trans hother.1) (by decide)⟩
  · next hkind =>
    split
    · next hkind' =>
      rw [decide_eq_true_iff]
      exact ⟨fun hlong => .inr ⟨hkind', hlong⟩, fun hlong => hlong.elim (absurd ·.1 hkind) And.right⟩
    · next hkind' =>
      exact ⟨nofun, fun hlong => hlong.elim (absurd ·.1 hkind) (absurd ·.1 hkind')⟩

theorem headerReceived_of_long {s : State} {h : List Byte} (hrx : s.link.rx = .receiving)
    (hlong : headerTooLong h = true) : s.headerReceived h = s.withLink s.link.reject := by
  simp only [State.headerReceived, hrx, hlong, if_true]

theorem headerReceived_otherwise {s : State} {h : List Byte}
    (hnot : s.link.rx ≠ .receiving ∨ ¬ headerTooLong h = true) : s.headerReceived h = s := by
  unfold State.headerReceived
  split
  · next hrx => exact if_neg (hnot.resolve_left (not_not_intro hrx))
  · rfl
  · rfl

theorem frameCut_of_receiving {s : State} (hrx : s.link.rx = .receiving) :
    s.frameCut = s.withLink s.link.reject := by
  simp only [State.frameCut, hrx]

theorem frameCut_otherwise {s : State} (hrx : s.link.rx ≠ .receiving) : s.frameCut = s := by
  unfold State.frameCut
  split
  · next h => exact absurd h hrx
  · rfl
  · rfl

/-! ### What a frame's end rejects -/

theorem readWindow_of_long {bs : List Byte} (hlong : 3560 < bs.length) : readWindow bs = none :=
  if_pos (.inr (.inl hlong))

theorem readRecallFrame_of_long {bs : List Byte} (hlong : 19960 < bs.length) :
    readRecallFrame bs = none := if_pos (.inr (.inl hlong))

theorem readHeader_sender {bs : List Byte} {h : Header} (hread : readHeader bs = some h) :
    stationOf (byteAt bs 1).toNat = some h.sender := by
  unfold readHeader at hread
  split at hread
  · next hsender _ _ _ =>
    split at hread
    · exact nomatch hread
    · rw [hsender, ← Option.some.inj hread]
  · exact nomatch hread

theorem readWindow_header {bs : List Byte} {f : WindowFrame} (hread : readWindow bs = some f) :
    readHeader bs = some f.header := by
  unfold readWindow at hread
  dsimp only at hread
  split at hread
  · exact nomatch hread
  · split at hread
    · next h _ _ hheader _ =>
      have hf : f.header = h := by
        split at hread
        · split at hread
          · exact nomatch hread
          · split at hread
            · exact nomatch hread
            · split at hread
              · exact nomatch hread
              · split at hread
                · exact nomatch hread
                · split at hread
                  · rw [← Option.some.inj hread]
                  · exact nomatch hread
        · exact nomatch hread
      rw [hheader, hf]
    · exact nomatch hread

theorem readRecallFrame_sender {bs : List Byte} {k : StationId} (hread : readRecallFrame bs = some k) :
    stationOf (byteAt bs 1).toNat = some k := by
  unfold readRecallFrame at hread
  dsimp only at hread
  split at hread
  · exact nomatch hread
  · split at hread
    · exact hread
    · exact nomatch hread

theorem judgeFrame_of_window {id : StationId} {bs : List Byte} (hkind : byteAt bs 0 = 1)
    (hnot : ∀ f, readWindow bs = some f → f.header.sender = id) : judgeFrame id bs = .rejected := by
  unfold judgeFrame
  rw [if_pos hkind]
  split
  · rfl
  · next f hf => exact if_pos (hnot f hf)

theorem judgeFrame_of_recall {id : StationId} {bs : List Byte} (hkind : byteAt bs 0 = 2)
    (hnot : ∀ k, readRecallFrame bs = some k → k = id) : judgeFrame id bs = .rejected := by
  unfold judgeFrame
  rw [if_neg (by rw [hkind]; decide), if_pos hkind]
  split
  · rfl
  · next k hk => exact if_pos (hnot k hk)

theorem judgeFrame_of_otherKind {id : StationId} {bs : List Byte} (hwindow : byteAt bs 0 ≠ 1)
    (hrecall : byteAt bs 0 ≠ 2) : judgeFrame id bs = .rejected := by
  rw [judgeFrame, if_neg hwindow, if_neg hrecall]

/-- A frame that bears this station's own ID is rejected (R51). -/
theorem judgeFrame_of_ownId {id : StationId} {bs : List Byte} (hown : (byteAt bs 1).toNat = id.val) :
    judgeFrame id bs = .rejected := by
  have hstation : stationOf (byteAt bs 1).toNat = some id := stationOf_of_val hown
  by_cases hwindow : byteAt bs 0 = 1
  · refine judgeFrame_of_window hwindow fun f hf => ?_
    exact Option.some.inj ((readHeader_sender (readWindow_header hf)).symm.trans hstation)
  · by_cases hrecall : byteAt bs 0 = 2
    · refine judgeFrame_of_recall hrecall fun k hk => ?_
      exact Option.some.inj ((readRecallFrame_sender hk).symm.trans hstation)
    · exact judgeFrame_of_otherKind hwindow hrecall

/-- Settles O48: the receiver's three steps, what a frame's end rejects, and the line as it is read. -/
theorem receptionSteps : Obligations.ReceptionSteps := by
  refine ⟨fun bytes => ⟨readLevels_lineLevels bytes, driveBits_noSilence _ _⟩, readsSilence_replicate,
    fun wait ago s hreset => ?_, fun h s hreset => ?_, fun s hreset => ?_, fun id bs => ?_⟩
  · intro d passed
    have hpassed : s.countsPass wait = passed := countsPass_high wait hreset
    rw [exec_leadInFound wait ago hreset, hpassed]
    refine ⟨fun hrx hago => ?_, fun hrx hlt t ht hago => ?_, fun hnot => ?_⟩
    · rw [leadInFound_of_instant (s := passed) hrx (instantAgo_of_le hago)]
      rfl
    · rw [leadInFound_of_instant (s := passed) hrx ((instantAgo_of_lt hlt).1 t ht hago)]
      rfl
    · obtain hrx | ⟨hlt, hnone⟩ := hnot
      · rw [leadInFound_of_rx (s := passed) ago hrx]
      · rw [leadInFound_of_none (s := passed) ((instantAgo_of_lt hlt).2 hnone)]
  · intro window recallLen tooLong
    have hwindow : byteAt h 0 = 1 → headerLeastLength h = window := headerLeastLength_window
    have hrecall : byteAt h 0 = 2 → headerLeastLength h = recallLen := headerLeastLength_recall
    have hlong : headerTooLong h = true ↔ tooLong :=
      (headerTooLong_iff h).trans (or_congr (and_congr_right fun hkind => by rw [hwindow hkind])
        (and_congr_right fun hkind => by rw [hrecall hkind]))
    have hexec : exec (.frameHeaderReceived h) s = .next (s.headerReceived h) :=
      congrArg Host.Outcome.next (whenRunning_high hreset _)
    rw [hexec]
    refine ⟨hwindow, hrecall, fun hrx htoo => ?_, fun hnot => ?_⟩
    · rw [headerReceived_of_long hrx (hlong.mpr htoo)]
      rfl
    · rw [headerReceived_otherwise (hnot.imp_right fun hshort htoo => hshort (hlong.mp htoo))]
  · have hexec : exec .frameCutBySilence s = .next s.frameCut :=
      congrArg Host.Outcome.next (whenRunning_high hreset _)
    rw [hexec]
    refine ⟨fun hrx => ?_, fun hrx => ?_⟩
    · rw [frameCut_of_receiving hrx]
      rfl
    · rw [frameCut_otherwise hrx]
  · refine ⟨judgeFrame_of_crcBad id, judgeFrame_of_otherKind, fun hkind hlong => ?_, fun hkind hlong => ?_,
      judgeFrame_of_ownId⟩
    · exact judgeFrame_of_window hkind fun f hf => nomatch (readWindow_of_long hlong).symm.trans hf
    · exact judgeFrame_of_recall hkind fun k hk => nomatch (readRecallFrame_of_long hlong).symm.trans hk

end Sys2Proof.Machine
end


section
/-! SUPPORT. The station's own windows (R43 to R48, R149 to R152): a window frame driven, sent and aborted,
and a recall frame sent and aborted. -/

namespace Sys2Proof.Machine

/-! ### The notice queue at a command's end -/

theorem NoticeQueue.join_carried (b : Bool) (q : NoticeQueue) (n : Notice) :
    (q.join b n).carried = q.carried := by
  unfold NoticeQueue.join
  split <;> rfl

theorem NoticeQueue.foldl_join_carried (b : Bool) (l : List Notice) (q : NoticeQueue) :
    (l.foldl (NoticeQueue.join b) q).carried = q.carried := by
  induction l generalizing q with
  | nil => rfl
  | cons n l ih => exact (ih _).trans (NoticeQueue.join_carried b q n)

theorem grant_notices (s : State) : s.grant.notices = s.notices := by
  obtain ⟨_, _, _, _, _, _, _, _, _, _, _, h⟩ := grant_onlyGrant s
  rw [h]

/-- The notices of a command's end join behind those that stand. -/
theorem finish_prefix {l : List Notice} {s : State} (h : s.notices.entries = l) :
    l <+: s.finish.notices.entries := by
  rw [← h, ← grant_notices s]
  exact settleNotices_prefix s.grant

theorem finish_carried (s : State) : s.finish.notices.carried = s.notices.carried := by
  rw [← grant_notices s]
  exact NoticeQueue.foldl_join_carried _ _ _

/-! ### The page awaiting outcome -/

/-- The pages of capture staging when the awaiting one takes an outcome (R30, R31). -/
def settledAs (o : PageOutcome) (pages : List OwnPage) : List OwnPage :=
  pages.map fun p => if p.outcome = .awaiting then { p with outcome := o } else p

theorem settledAs_of_none {s : State} (o : PageOutcome) (hnone : s.awaitingPage = none) :
    settledAs o s.store.capture = s.store.capture := by
  refine (List.map_congr_left fun p hp => ?_).trans (List.map_id _)
  exact if_neg fun h => List.find?_eq_none.mp hnone p hp (decide_eq_true h)

/-- The page settled UNSENT, if one awaits an outcome (R31). -/
theorem settleUnsent_eq (s : State) : s.settleUnsent = { s with
    store := { s.store with capture := settledAs .unsent s.store.capture }
    seat := { s.seat with
      unsentSlices := s.seat.unsentSlices + (if s.awaitingPage.isSome = true then 1 else 0) } } := by
  cases h : s.awaitingPage with
  | none =>
    have hzero : s.seat.unsentSlices + 0 = s.seat.unsentSlices := BitVec.add_zero _
    rw [settledAs_of_none _ h, if_neg (by decide), hzero]
    simp only [State.settleUnsent, h]
  | some p =>
    simp only [State.settleUnsent, h]
    rfl

/-! ### The station's own window -/

theorem mayTransmit_iff (s : State) :
    s.mayTransmit = true ↔ s.active = true ∧ s.clock.discipline ≠ .realign := by
  rw [State.mayTransmit, Bool.and_eq_true, decide_eq_true_iff]

/-- OWN_WINDOW_START while RESET_N is high and the station drives nothing. -/
theorem exec_ownWindowStart {s : State} (hreset : s.resetN = true) (htx : s.link.tx = .silent) :
    exec .ownWindowStart s = .next s.startWindow.finish := by
  change Host.Outcome.next _ = _
  rw [whenRunning_high hreset]
  simp only [State.ownWindow, htx]

/-- The link that begins to drive a frame: one being received is abandoned (R44, R50). -/
theorem drive_eq (l : Link) (tx : TxState) (f : Flight) : l.drive tx f = { l with
    tx := tx, rx := .readback, flight := some f
    leadIn := if l.rx = .receiving then none else l.leadIn
    rejects := if l.rx = .receiving then l.rejects + 1 else l.rejects } := by
  unfold Link.drive
  split <;> rfl

theorem windowFlight_eq (s : State) : s.windowFlight = .windowFrame (s.awaitingPage.map OwnPage.slice)
    (min 24 s.spans.outbox.length) (min 4 s.notices.entries.length) s.framePlan (!s.server.queue.isEmpty)
    (leadInBytes ++ s.windowProper ++ le32 (crc32 s.windowProper)) := by
  rw [State.windowFlight, State.frameItems, State.frameNotices, List.length_take, List.length_take]
  rfl

theorem startWindow_of_mayTransmit {s : State} (hmay : s.mayTransmit = true) : s.startWindow = { s with
    link := s.link.drive .sendingWindow s.windowFlight, notices := s.notices.carry } := if_pos hmay

theorem carry_carried (q : NoticeQueue) : q.carry.carried = some (min 4 q.entries.length, q.dropped) :=
  congrArg (fun n => some (n, q.dropped)) List.length_take

/-- Settles O44: the half-cells of a frame, and the window in which R43 allows transmission. -/
theorem ownWindowDrivesFrame : Obligations.OwnWindowDrivesFrame := by
  refine ⟨fun bytes => ⟨lineLevels_length bytes, fun i k b hb hk => lineLevels_cell hb hk⟩,
    fun s hreset htx hactive hdiscipline => ?_⟩
  have hmay := (mayTransmit_iff s).mpr ⟨hactive, hdiscipline⟩
  refine ⟨_, exec_ownWindowStart hreset htx, ?_⟩
  rw [startWindow_of_mayTransmit hmay, drive_eq, windowFlight_eq]
  refine ⟨finish_link _, finish_prefix rfl, ?_, ?_, finish_capture _, ?_⟩
  · rw [finish_carried]
    exact carry_carried _
  · rw [State.lineDriven, finish_link]
    rfl
  · rw [finish_link]
    exact finish_rest _

/-- Settles O45: the window that passes in silence settles the page UNSENT. -/
theorem suppressedWindowSettlesUnsent : Obligations.SuppressedWindowSettlesUnsent := by
  intro s hreset htx hforbids
  have hnot : ¬ s.mayTransmit = true := by
    rw [mayTransmit_iff]
    rintro ⟨hactive, hdiscipline⟩
    exact hforbids.elim (fun h => nomatch h.symm.trans hactive) hdiscipline
  have hstart : s.startWindow = s.settleUnsent := if_neg hnot
  refine ⟨_, exec_ownWindowStart hreset htx, ?_⟩
  rw [hstart, settleUnsent_eq]
  refine ⟨finish_capture _, finish_seat _, finish_prefix rfl, ?_⟩
  rw [finish_seat]
  exact finish_rest _

/-! ### The window frame's end -/

/-- WINDOW_FRAME_SENT while RESET_N is high and a window frame is in flight. -/
theorem exec_windowFrameSent {s : State} {page : Option Slice} {n m : Nat} {periodic : List PlanItem}
    {claim : Bool} {bytes : List Byte} (hreset : s.resetN = true)
    (hflight : s.link.flight = some (.windowFrame page n m periodic claim bytes)) :
    exec .windowFrameSent s = .next (s.windowSent page n periodic claim).finish := by
  change Host.Outcome.next _ = _
  rw [whenRunning_high hreset]
  simp only [State.ownFrameSent, hflight]

/-- What a window frame sent complete changes (R45). -/
theorem windowSent_eq (s : State) (page : Option Slice) (n : Nat) (periodic : List PlanItem) (claim : Bool) :
    s.windowSent page n periodic claim = { s with
      store := { s.store with
        capture := if page.isSome = true then settledAs .sent s.store.capture else s.store.capture
        peak := if .counterReport ∈ periodic then s.store.debt else s.store.peak }
      spans := { s.spans with outbox := s.spans.outbox.drop n }
      notices := s.notices.drain
      link := { s.link.release with
        due := s.link.due.filter fun p => decide (p ∉ periodic)
        claims := if claim = true ∧ s.control.id ∉ s.link.claims then s.link.claims ++ [s.control.id]
          else s.link.claims } } := by
  unfold State.windowSent
  by_cases hpage : page.isSome = true
  · by_cases hreport : PlanItem.counterReport ∈ periodic
    · simp only [hpage, hreport, if_true]; rfl
    · simp only [hpage, hreport, if_true, if_false]; rfl
  · by_cases hreport : PlanItem.counterReport ∈ periodic
    · simp only [hpage, hreport, if_true]; rfl
    · simp only [hpage, hreport, if_false]; rfl

theorem drain_of_carried {q : NoticeQueue} {x y : Nat} (h : q.carried = some (x, y)) : q.drain =
    { q with entries := q.entries.drop x, dropped := q.droppedSince, droppedSince := 0, carried := none } := by
  simp only [NoticeQueue.drain, h]

/-- Settles O46: the frame's end by what it carried, and the command's end behind it. -/
theorem windowFrameSentDrains : Obligations.WindowFrameSentDrains := by
  intro page n m periodic claim bytes s hreset hflight
  have hu := windowSent_eq s page n periodic claim
  refine ⟨_, _, exec_windowFrameSent hreset hflight, rfl, ?_⟩
  generalize s.windowSent page n periodic claim = u at hu ⊢
  have hdrained (x y : Nat) (hcarried : s.notices.carried = some (x, y)) : u.notices = { s.notices with
      entries := s.notices.entries.drop x, dropped := s.notices.droppedSince
      droppedSince := 0, carried := none } := by
    rw [hu]
    exact drain_of_carried hcarried
  refine ⟨fun x y hcarried => ⟨hdrained x y hcarried, fun hraised hwaits => ?_⟩, ?_,
    fun p => ?_, fun k => ?_, ?_, fun hpage => ?_, fun hpage => ?_, ?_, fun x y hcarried => ?_, ?_⟩
  · rw [finish_of_waiting (s := u) (by rw [hu]; exact hraised) (by rw [hu]; exact hwaits)]
  · rw [finish_spans, hu]
  · rw [finish_link, hu]
    simp only [List.mem_filter, decide_eq_true_eq]
  · rw [finish_link, hu]
    dsimp only
    split
    · next h => simp [h.1]
    · next h =>
      refine ⟨Or.inl, fun hk => hk.elim id ?_⟩
      rintro ⟨hclaim, rfl⟩
      exact not_not.mp fun hnot => h ⟨hclaim, hnot⟩
  · rw [finish_link, hu]
    rfl
  · rw [finish_capture, hu]
    exact if_pos hpage
  · rw [finish_capture, hu]
    exact if_neg (by rw [hpage]; decide)
  · obtain ⟨-, hpeak, -⟩ := finish_kept u
    rw [hpeak, hu]
  · rw [finish_carried, hdrained x y hcarried]
    exact ⟨finish_prefix (congrArg NoticeQueue.entries (hdrained x y hcarried)), rfl⟩
  · have hrest := finish_rest u
    rw [finish_link, finish_spans]
    generalize u.finish = t at hrest ⊢
    rw [hrest, hu]

/-! ### An abort on readback -/

/-- What an abort on readback counts and reports (R57). -/
theorem collide_eq (s : State) (subject n : Nat) : s.collide subject n =
    ({ s with link := { s.link.release with collisions := s.link.collisions + 1 } }).raise .link .collision
      subject (BitVec.ofNat 16 (min n 65535)) := by
  have hmin : (if n < 65535 then n else 65535) = min n 65535 := by
    rw [Nat.min_def]
    split <;> split <;> omega
  rw [State.collide, hmin]
  rfl

/-- WINDOW_FRAME_ABORTED while RESET_N is high and a window frame is in flight. -/
theorem exec_windowFrameAborted {s : State} {page : Option Slice} {n m : Nat} {periodic : List PlanItem}
    {claim : Bool} {bytes : List Byte} (read : List LineLevel) (hreset : s.resetN = true)
    (hflight : s.link.flight = some (.windowFrame page n m periodic claim bytes)) :
    (∀ driven, bytesBeforeMismatch bytes read = some driven →
      exec (.windowFrameAborted read) s = .next (s.windowAborted page driven).finish) ∧
    (bytesBeforeMismatch bytes read = none → exec (.windowFrameAborted read) s = .next s) := by
  have hexec : exec (.windowFrameAborted read) s = .next (s.ownFrameAborted read) :=
    congrArg Host.Outcome.next (whenRunning_high hreset _)
  rw [hexec]
  constructor
  · intro driven hmismatch
    simp only [State.ownFrameAborted, hflight, hmismatch]
  · intro hmismatch
    simp only [State.ownFrameAborted, hflight, hmismatch]

/-- What a window frame's abort changes (R46). -/
theorem windowAborted_eq (s : State) (page : Option Slice) (n : Nat) : s.windowAborted page n = { s with
    store := { s.store with
      capture := if page.isSome = true then settledAs .unsent s.store.capture else s.store.capture }
    seat := { s.seat with unsentSlices := s.seat.unsentSlices +
      (if page.isSome = true ∧ s.awaitingPage.isSome = true then 1 else 0) }
    notices := { s.notices with carried := none }
    link := { s.link.release with collisions := s.link.collisions + 1 }
    raised := s.raised ++ [{ raiser := .link, notice := { kind := .collision, slice := s.clock.index
                                                          subject := 0
                                                          detail := BitVec.ofNat 16 (min n 65535) } }] } := by
  unfold State.windowAborted
  rw [collide_eq]
  by_cases hpage : page.isSome = true
  · rw [if_pos hpage, settleUnsent_eq]
    simp only [hpage, if_true, true_and]
    rfl
  · have hzero : s.seat.unsentSlices + 0 = s.seat.unsentSlices := BitVec.add_zero _
    rw [if_neg hpage, if_neg hpage, if_neg (fun h => hpage h.1), hzero]
    rfl

/-- Settles O47: the frame's abort at the first half-cell that reads otherwise, the command's end behind it,
and two peers that drive the line together. -/
theorem windowFrameAbortedKeepsQueues : Obligations.WindowFrameAbortedKeepsQueues := by
  refine ⟨fun page n m periodic claim bytes read s hreset hflight => ?_,
    fun a b i x y ha hb hne hsame => ?_⟩
  · obtain ⟨haborted, hnothing⟩ := exec_windowFrameAborted read hreset hflight
    refine ⟨fun i d r hd hr hne hsame => ?_, fun hsame => hnothing (bytesBeforeMismatch_none hsame)⟩
    intro collision
    have hu := windowAborted_eq s page (i / 16)
    refine ⟨_, _, haborted _ (bytesBeforeMismatch_eq hd hr hne hsame), rfl, ?_⟩
    generalize s.windowAborted page (i / 16) = u at hu ⊢
    have hraise : u.raised = s.raised ++ [{ raiser := .link, notice := collision }] := by rw [hu]
    have hqueue : u.notices = { s.notices with carried := none } := by rw [hu]
    refine ⟨hqueue, (finish_link u).symm, ?_, fun hraised hwaits => ?_, ?_, fun hpage => ?_, fun hpage => ?_,
      ?_, ?_, ?_, ?_⟩
    · rw [hraise]
      exact List.mem_append_right _ (List.mem_singleton_self _)
    · have hgrant : u.grant = u :=
        hwaits.elim (fun hop => grant_busy u (by rw [hu]; exact hop))
          fun hwait => grant_held u (by rw [hu]; exact hwait)
      have hflying : u.windowInFlight = false := by rw [hu]; rfl
      rw [hraised, List.nil_append] at hraise
      rw [State.finish, hgrant, settleNotices_one u _ hraise, hflying, hqueue]
    · rw [finish_link, hu]
      rfl
    · rw [finish_capture, hu]
      exact if_pos hpage
    · rw [finish_capture, hu]
      exact if_neg (by rw [hpage]; decide)
    · rw [finish_seat, hu]
    · exact finish_prefix (by rw [hqueue])
    · rw [finish_carried, hqueue]
    · have hrest := finish_rest u
      rw [finish_link, finish_seat]
      generalize u.finish = t at hrest ⊢
      rw [hrest, hu]
  · intro line
    obtain ⟨hline, hmismatch, hmismatch'⟩ := mismatch_of_mixed ha hb
      (driveBits_driven (List.mem_of_getElem? ha)) (driveBits_driven (List.mem_of_getElem? hb)) hne hsame
    refine ⟨?_, ?_, ?_⟩
    · rw [bytesBeforeMismatch, hmismatch]
    · rw [bytesBeforeMismatch, hmismatch']
    · rw [List.getD_eq_getElem?_getD, hline]
      rfl

/-! ### The recall frame's end -/

/-- RECALL_FRAME_ABORTED while RESET_N is high and a recall frame is in flight. -/
theorem exec_recallFrameAborted {s : State} {n : Nat} {bytes : List Byte} (read : List LineLevel)
    (hreset : s.resetN = true) (hflight : s.link.flight = some (.recallFrame n bytes)) :
    (∀ driven, bytesBeforeMismatch bytes read = some driven →
      exec (.recallFrameAborted read) s = .next (s.recallAborted driven).settleNotices) ∧
    (bytesBeforeMismatch bytes read = none → exec (.recallFrameAborted read) s = .next s) := by
  have hexec : exec (.recallFrameAborted read) s = .next (s.recallFrameAborted read) :=
    congrArg Host.Outcome.next (whenRunning_high hreset _)
  rw [hexec]
  constructor
  · intro driven hmismatch
    simp only [State.recallFrameAborted, hflight, hmismatch]
  · intro hmismatch
    simp only [State.recallFrameAborted, hflight, hmismatch]

/-- Settles O43: the abort empties the buffer and reports the one COLLISION. -/
theorem recallFrameAbortedRewinds : Obligations.RecallFrameAbortedRewinds := by
  intro n bytes read s hreset hraised hflight
  obtain ⟨haborted, hnothing⟩ := exec_recallFrameAborted read hreset hflight
  refine ⟨fun i d r hd hr hne hsame => ?_, fun hsame => hnothing (bytesBeforeMismatch_none hsame)⟩
  rw [haborted _ (bytesBeforeMismatch_eq hd hr hne hsame), State.recallAborted, collide_eq,
    settleNotices_raise (by exact hraised)]
  rfl

/-- What a recall frame sent complete leaves in the queue (R150). -/
theorem sent_queue (r : Recall) : r.sent.queue =
    (r.queue.filter fun q => !(r.buffer.any fun i => i.handed && i.isDoneOf q.id)).map fun q => { q with
      blocksSent := q.blocksSent + r.buffer.countP (fun i => i.handed && i.isBlockOf q.id)
      gapsSent := q.gapsSent + r.buffer.countP (fun i => i.handed && i.isGapOf q.id) } := by
  simp only [Recall.sent, RecallRequest.credit, List.any_filter, List.countP_filter, Bool.and_comm]

theorem sent_cursor (r : Recall) : r.sent.cursor =
    cursorAfter (headOf r.queue) r.sent.queue r.sent.buffer r.pos := rfl

theorem sent_pos_of_empty {r : Recall} (hempty : r.sent.queue = []) : r.sent.pos = none := by
  have hpos : r.sent.pos = match r.sent.queue with
      | [] => none
      | _ :: _ =>
        match r.pos with
        | none => r.sent.cursor
        | some p => if r.sent.queue.any fun q => decide (q.id = p.request) then some p else r.sent.cursor := rfl
  rw [hpos, hempty]

theorem sent_frame (r : Recall) : r.sent = { r with
    queue := r.sent.queue, buffer := r.sent.buffer, cursor := r.sent.cursor, pos := r.sent.pos } := rfl

/-- Settles O42: what the recall service keeps of a frame sent complete. -/
theorem recallFrameSentSettles : Obligations.RecallFrameSentSettles := by
  intro n bytes s hreset hflight
  have hexec : exec .recallFrameSent s = .next s.recallSent := by
    change Host.Outcome.next _ = _
    rw [whenRunning_high hreset]
    simp only [State.recallFrameSent, hflight]
  have hserver : s.recallSent.server = s.server.sent := rfl
  refine ⟨_, hexec, ?_⟩
  rw [hserver]
  refine ⟨rfl, sent_queue s.server, fun hempty => ⟨?_, sent_pos_of_empty hempty⟩, fun i rest hne hbuffer => ?_,
    fun q rest old more hqueue hbuffer hold => ?_, sent_frame s.server, rfl⟩
  · rw [sent_cursor, hempty]
    rfl
  · rw [sent_cursor, hbuffer]
    cases hqueue : s.server.sent.queue with
    | nil => exact absurd hqueue hne
    | cons => rfl
  · rw [sent_cursor, hqueue, hbuffer, hold]
    simp only [cursorAfter, headOf, Option.some.injEq]

end Sys2Proof.Machine
end


section
/-! SUPPORT. The recall window (R47, R149, R152) and the recall frame as another station reads it
(Table 11-12, R53). -/

namespace Sys2Proof.Machine

/-! ### The start of the recall window -/

theorem exec_recallWindowStart {s : State} (hreset : s.resetN = true) :
    exec .recallWindowStart s = .next s.recallWindow :=
  congrArg Host.Outcome.next (whenRunning_high hreset _)

theorem recallWindow_of_reading {s : State} (htx : s.link.tx = .silent) (hreading : s.server.reading = true) :
    s.recallWindow = s.startRecall := by
  simp only [State.recallWindow, htx, hreading, if_true]

theorem recallWindow_otherwise {s : State} (h : s.link.tx ≠ .silent ∨ s.server.reading = false) :
    s.recallWindow = s := by
  unfold State.recallWindow
  split
  · next htx =>
    rw [h.resolve_left (not_not_intro htx)]
    rfl
  · rfl
  · rfl

theorem startRecall_of_drive {s : State} (hmay : s.mayTransmit = true) (hbuffer : s.server.buffer ≠ []) :
    s.startRecall = (s.withServer s.server.endReading).driveRecall := if_pos ⟨hmay, hbuffer⟩

theorem startRecall_of_silence {s : State} (h : s.mayTransmit = false ∨ s.server.buffer = []) :
    s.startRecall = s.withServer s.server.endReading := by
  refine if_neg ?_
  rintro ⟨hmay, hbuffer⟩
  exact h.elim (fun hnot => nomatch hnot.symm.trans hmay) hbuffer

/-! ### The recall frame -/

theorem recallItemBytes_length {r : RecallId} {i : RecallItem}
    (hsamples : ∀ b c u, i = .block b c u → b.samples.length = 160) :
    (recallItemBytes r i).length = i.size := by
  cases i with
  | block b c u =>
    simp only [recallItemBytes, List.length_append, le32_length, sampleBytes_length, hsamples b c u rfl]
    rfl
  | gap lanes f l outcome => rfl
  | done blocks gaps => rfl

/-- The code of an item's kind stands above its source. -/
theorem kindCode : ∀ k : StationId, (byte (16 * 1 + k.val) >>> 4).toNat = 1 ∧
    (byte (16 * 2 + k.val) >>> 4).toNat = 2 ∧ (byte (16 * 3 + k.val) >>> 4).toNat = 3 := by decide

/-- An item is passed over by its kind's length. -/
theorem readRecallItem_bytes {r : RecallId} {i : RecallItem}
    (hsamples : ∀ b c u, i = .block b c u → b.samples.length = 160) (tail : List Byte) :
    readRecallItem (recallItemBytes r i ++ tail) = some ((), tail) := by
  obtain ⟨hblock, hgap, hdone⟩ := kindCode r.source
  have hlength := recallItemBytes_length (r := r) hsamples
  have hread {n : Nat} (hn : i.size = n) (hpos : n ≠ 0) :
      (if n = 0 ∨ (recallItemBytes r i ++ tail).length < n then none
        else some ((), (recallItemBytes r i ++ tail).drop n)) = some ((), tail) := by
    rw [if_neg (by rw [List.length_append]; omega), List.drop_left' (hlength.trans hn)]
  unfold readRecallItem
  cases i with
  | block b c u =>
    have hkind : (byteAt (recallItemBytes r (.block b c u) ++ tail) 0 >>> 4).toNat = 1 := hblock
    rw [hkind]
    exact hread rfl (by decide)
  | gap lanes f l outcome =>
    have hkind : (byteAt (recallItemBytes r (.gap lanes f l outcome) ++ tail) 0 >>> 4).toNat = 2 := hgap
    rw [hkind]
    exact hread rfl (by decide)
  | done blocks gaps =>
    have hkind : (byteAt (recallItemBytes r (.done blocks gaps) ++ tail) 0 >>> 4).toNat = 3 := hdone
    rw [hkind]
    exact hread rfl (by decide)

/-- The items' bytes in a frame. -/
def recallBody (items : List BufferItem) : List Byte :=
  items.flatMap fun i => recallItemBytes i.request i.item

theorem recallProper_eq (id : StationId) (t : Slice) (items : List BufferItem) : recallProper id t items =
    ([2, byte id.val] ++ le16 (BitVec.ofNat 16 items.length) ++ le32 t ++
      le32 (BitVec.ofNat 32 (recallBody items).length) ++ zeros 4) ++ recallBody items := rfl

section Items

variable {items : List BufferItem}
  (hsamples : ∀ i ∈ items, ∀ b c u, i.item = .block b c u → b.samples.length = 160)

include hsamples

theorem recallBody_length : (recallBody items).length = (items.map fun i => i.item.size).sum := by
  rw [recallBody, List.length_flatMap]
  refine congrArg List.sum (List.map_congr_left fun i hi => ?_)
  exact recallItemBytes_length (hsamples i hi)

theorem recallProper_length (id : StationId) (t : Slice) :
    (recallProper id t items).length = 16 + (items.map fun i => i.item.size).sum := by
  rw [recallProper_eq, List.length_append, recallBody_length hsamples]
  rfl

theorem takeMany_recallBody : takeMany readRecallItem items.length (recallBody items) =
    some (items.map fun _ => (), []) := by
  have hone (i : BufferItem) (hi : i ∈ items) (tail : List Byte) :
      readRecallItem (recallItemBytes i.request i.item ++ tail) = some ((), tail) :=
    readRecallItem_bytes (hsamples i hi) tail
  rw [recallBody]
  generalize readRecallItem = f at hone ⊢
  have hread := takeMany_flatMap (f := f) (made := fun _ : BufferItem => ())
    (write := fun i => recallItemBytes i.request i.item) items [] hone
  rw [List.append_nil] at hread
  exact hread

end Items

theorem size_pos (i : RecallItem) : 8 ≤ i.size := by
  cases i with
  | block => exact (by decide : 8 ≤ 336)
  | gap => exact (by decide : 8 ≤ 16)
  | done => exact (by decide : 8 ≤ 8)

theorem length_le_sizes (items : List BufferItem) :
    8 * items.length ≤ (items.map fun i => i.item.size).sum := by
  induction items with
  | nil => exact Nat.le_refl 0
  | cons i items ih =>
    have hi := size_pos i.item
    rw [List.length_cons, List.map_cons, List.sum_cons]
    omega

/-- The header's fields, behind whatever stands behind it. -/
theorem recallHeader_fields (k : Byte) (n : Half) (t m : Word) (rest : List Byte) :
    let bs := ([2, k] ++ le16 n ++ le32 t ++ le32 m ++ zeros 4) ++ rest
    byteAt bs 0 = 2 ∧ byteAt bs 1 = k ∧ half16 bs 2 = n ∧ word32 bs 8 = m ∧ bs.drop 16 = rest :=
  ⟨rfl, rfl, half16_le16 n [], word32_le32 m, rfl⟩

/-- What the receiver takes from a recall frame's header. -/
theorem recallProper_fields (id : StationId) (t : Slice) {items : List BufferItem}
    (hsize : (items.map fun i => i.item.size).sum ≤ 19940)
    (hsamples : ∀ i ∈ items, ∀ b c u, i.item = .block b c u → b.samples.length = 160) (rest : List Byte) :
    byteAt (recallProper id t items ++ rest) 0 = 2 ∧
    stationOf (byteAt (recallProper id t items ++ rest) 1).toNat = some id ∧
    (half16 (recallProper id t items ++ rest) 2).toNat = items.length ∧
    (word32 (recallProper id t items ++ rest) 8).toNat = (recallBody items).length ∧
    (recallProper id t items).drop 16 = recallBody items := by
  have hbody := recallBody_length hsamples
  have hcount := length_le_sizes items
  obtain ⟨-, -, -, -, hdrop⟩ := recallHeader_fields (byte id.val) (BitVec.ofNat 16 items.length) t
    (BitVec.ofNat 32 (recallBody items).length) (recallBody items)
  obtain ⟨hkind, hsender, hitems, hbytes, -⟩ := recallHeader_fields (byte id.val)
    (BitVec.ofNat 16 items.length) t (BitVec.ofNat 32 (recallBody items).length) (recallBody items ++ rest)
  rw [recallProper_eq, List.append_assoc, hkind, hsender, hitems, hbytes, hdrop, BitVec.toNat_ofNat,
    BitVec.toNat_ofNat, Nat.mod_eq_of_lt (by omega), Nat.mod_eq_of_lt (by omega)]
  exact ⟨rfl, stationOf_byte id, rfl, rfl, rfl⟩

/-- A recall frame as it is driven gives its sender. -/
theorem readRecallFrame_recallProper (id : StationId) (t : Slice) {items : List BufferItem}
    (hsize : (items.map fun i => i.item.size).sum ≤ 19940)
    (hsamples : ∀ i ∈ items, ∀ b c u, i.item = .block b c u → b.samples.length = 160) :
    readRecallFrame (recallProper id t items ++ le32 (crc32 (recallProper id t items))) = some id := by
  have hlength := recallProper_length hsamples id t
  have hcrc := crcGood_append_crc32 (recallProper id t items)
  have hproper : (recallProper id t items ++ le32 (crc32 (recallProper id t items))).take
      ((recallProper id t items ++ le32 (crc32 (recallProper id t items))).length - 4) =
      recallProper id t items := by
    rw [List.length_append, le32_length, Nat.add_sub_cancel, List.take_left]
  have htotal : (recallProper id t items ++ le32 (crc32 (recallProper id t items))).length =
      20 + (items.map fun i => i.item.size).sum := by
    rw [List.length_append, hlength, le32_length]
    omega
  obtain ⟨-, hsender, hitems, hbytes, hdrop⟩ :=
    recallProper_fields id t hsize hsamples (le32 (crc32 (recallProper id t items)))
  have hlimit : Config.recallLimit = 19960 := rfl
  have hgood : ¬ (20 + (items.map fun i => i.item.size).sum < 20 ∨
      Config.recallLimit < 20 + (items.map fun i => i.item.size).sum ∨
      crcGood (recallProper id t items ++ le32 (crc32 (recallProper id t items))) = false ∨
      (recallBody items).length ≠ (recallBody items).length) := by
    rw [hcrc, hlimit]
    simp only [Bool.true_eq_false, ne_eq, not_true_eq_false, or_false]
    omega
  unfold readRecallFrame
  dsimp only
  rw [hproper, hdrop, htotal, hbytes, if_neg hgood, hitems, takeMany_recallBody hsamples]
  exact hsender

theorem judgeFrame_recallProper {id j : StationId} (t : Slice) {items : List BufferItem} (hother : j ≠ id)
    (hsize : (items.map fun i => i.item.size).sum ≤ 19940)
    (hsamples : ∀ i ∈ items, ∀ b c u, i.item = .block b c u → b.samples.length = 160) :
    judgeFrame j (recallProper id t items ++ le32 (crc32 (recallProper id t items))) = .recallFrame id := by
  obtain ⟨hkind, -⟩ := recallProper_fields id t hsize hsamples (le32 (crc32 (recallProper id t items)))
  rw [judgeFrame, if_neg (by rw [hkind]; decide), if_pos hkind,
    readRecallFrame_recallProper id t hsize hsamples]
  exact if_neg fun h => hother h.symm

/-- Settles O41: the recall window's start in its three cases, and the frame as another station reads it. -/
theorem recallWindowHandsBuffer : Obligations.RecallWindowHandsBuffer := by
  refine ⟨fun s hreset => ?_, fun id j t items hother hsize hsamples => ?_⟩
  · rw [exec_recallWindowStart hreset]
    refine ⟨fun htx hreading hmay hbuffer => ?_, fun htx hreading hnot => ?_, fun hnot => ?_⟩
    · rw [recallWindow_of_reading htx hreading, startRecall_of_drive hmay hbuffer, State.driveRecall, drive_eq]
      rfl
    · rw [recallWindow_of_reading htx hreading, startRecall_of_silence hnot]
      rfl
    · rw [recallWindow_otherwise hnot]
  · exact ⟨recallProper_length hsamples id t, judgeFrame_recallProper t hother hsize hsamples⟩

end Sys2Proof.Machine
end


section
/-! SUPPORT. The lanes of a seat mask in ascending order, and RECALL requests taken and turned away (R140 to
R143, R157). -/

namespace Sys2Proof.Machine

/-! ### The lanes of a mask -/

/-- The first lane in ascending order that has a property. -/
theorem find_allLanes {p : Lane → Bool} {l : Lane} (hl : p l = true) (hbelow : ∀ j : Lane, j < l → p j = false) :
    allLanes.find? p = some l := by
  have hsorted : allLanes.Pairwise (· < ·) := by decide
  cases hfound : allLanes.find? p with
  | none => exact absurd hl (by simpa using List.find?_eq_none.mp hfound l (mem_allLanes l))
  | some k =>
    have hk : p k = true := List.find?_some hfound
    obtain ⟨-, before, after, hsplit, hnot⟩ := List.find?_eq_some_iff_append.mp hfound
    obtain h | h | h := lt_trichotomy k l
    · exact nomatch (hbelow k h).symm.trans hk
    · rw [h]
    · have hmem : l ∈ before := by
        have hall := mem_allLanes l
        rw [hsplit, List.mem_append, List.mem_cons] at hall
        obtain hb | rfl | ha := hall
        · exact hb
        · exact absurd h (lt_irrefl _)
        · rw [hsplit, List.pairwise_append, List.pairwise_cons] at hsorted
          exact absurd (hsorted.2.1.1 l ha) (lt_asymm h)
      exact absurd hl (by simpa using hnot l hmem)

theorem find_allLanes_none {p : Lane → Bool} (h : ∀ l : Lane, p l = false) : allLanes.find? p = none :=
  List.find?_eq_none.mpr fun l _ => by rw [h l]; decide

/-- The lowest lane of a mask. -/
theorem lowestLane_eq {mask : BitVec 8} {l : Lane} (hl : mask.getLsbD l.val = true)
    (hbelow : ∀ j : Lane, j < l → mask.getLsbD j.val = false) : lowestLane mask = l := by
  rw [lowestLane, find_allLanes hl hbelow]
  rfl

theorem exists_lowestLane {mask : BitVec 8} (hmask : mask ≠ 0) :
    mask.getLsbD (lowestLane mask).val = true ∧
      ∀ j : Lane, j < lowestLane mask → mask.getLsbD j.val = false := by
  revert mask
  decide +kernel

/-- The next lane of a mask above a lane. -/
theorem nextLane_eq {mask : BitVec 8} {l k : Lane} (hlt : l < k) (hk : mask.getLsbD k.val = true)
    (hbetween : ∀ j : Lane, l < j → j < k → mask.getLsbD j.val = false) : nextLane mask l = some k := by
  refine find_allLanes (by rw [decide_eq_true hlt, hk]; rfl) fun j hj => ?_
  by_cases h : l < j
  · rw [hbetween j h hj, Bool.and_false]
  · rw [decide_eq_false h, Bool.false_and]

theorem nextLane_none {mask : BitVec 8} {l : Lane}
    (habove : ∀ k : Lane, l < k → mask.getLsbD k.val = false) : nextLane mask l = none := by
  refine find_allLanes_none fun j => ?_
  by_cases h : l < j
  · rw [habove j h, Bool.and_false]
  · rw [decide_eq_false h, Bool.false_and]

/-! ### A RECALL judged -/

section Request

variable (k : StationId) (tag : Half) (holder source mask : Byte) (first last : Slice)

/-- RECALL while RESET_N is high, from another station, in RUN or IDLE (R140, R171). -/
theorem exec_recallRequest {s : State} (hreset : s.resetN = true) (hother : k ≠ s.control.id)
    (hactive : s.active = true) : exec (.recallRequest k tag holder source mask first last) s =
      .next (s.takeRecall k tag holder source mask first last).finish := by
  have hheard : s.hears k = true := decide_eq_true hother
  change Host.Outcome.next _ = _
  rw [whenRunning_high hreset, State.takeRecallRequest, if_pos ⟨hheard, hactive⟩]

end Request

theorem repeats_iff (a b : RecallId) : a.repeats b = true ↔ a.requester = b.requester ∧
    a.source = b.source ∧ a.mask = b.mask ∧ a.first = b.first ∧ a.last = b.last :=
  decide_eq_true_iff

section Judged

variable {k : StationId} {tag : Half} {source mask : Byte} {first last : Slice} {src : StationId} {s : State}
  (hsource : source.toNat = src.val)

include hsource

/-- A request whose source is a station goes to the tests of R141 in their order. -/
theorem judgeRecall_eq : s.judgeRecall k tag source mask first last =
    if 6000 ≤ (last - first).toNat ∨ mask = 0 ∨ (src ≠ s.control.id ∧ s.control.charter.mirrorShare = 0)
      then s.refuseRecall k tag
    else if (s.server.queue.any fun q => q.id.repeats { requester := k, tag := tag, source := src
                                                        mask := mask, first := first, last := last }) = true
      then s
    else if 8 ≤ s.server.queue.length then s.refuseRecall k tag
    else (s.withServer (s.server.accept { requester := k, tag := tag, source := src
                                          mask := mask, first := first, last := last })).pump := by
  rw [State.judgeRecall, stationOf_of_val hsource]
  dsimp only
  by_cases hrange : 6000 ≤ (last - first).toNat
  · rw [if_pos hrange, if_pos (.inl hrange)]
  rw [if_neg hrange]
  by_cases hmask : mask = 0
  · rw [if_pos hmask, if_pos (.inr (.inl hmask))]
  rw [if_neg hmask]
  by_cases hmirror : src ≠ s.control.id ∧ s.control.charter.mirrorShare = 0
  · rw [if_pos hmirror, if_pos (.inr (.inr hmirror))]
  rw [if_neg hmirror, if_neg (not_or.mpr ⟨hrange, not_or.mpr ⟨hmask, hmirror⟩⟩)]
  rfl

end Judged

theorem judgeRecall_of_noStation {source : Byte} (hsource : 16 ≤ source.toNat) (s : State) (k : StationId)
    (tag : Half) (mask : Byte) (first last : Slice) :
    s.judgeRecall k tag source mask first last = s.refuseRecall k tag := by
  rw [State.judgeRecall, stationOf_of_ge hsource]

/-! ### A RECALL accepted -/

theorem accept_queue (r : Recall) (id : RecallId) :
    (r.accept id).queue = r.queue ++ [{ id := id, blocksSent := 0, gapsSent := 0 }] := by
  unfold Recall.accept
  cases h : r.queue with
  | nil => rfl
  | cons q rest =>
    dsimp only
    split <;> rfl

theorem pump_queue (r : Recall) : r.pump.queue = r.queue := by
  obtain ⟨_, _, _, h⟩ := Recall.pump_frame r
  rw [h]

/-- Outside a reading period the first request's start becomes the cursor and the read position (R143). -/
theorem accept_first {r : Recall} (hempty : r.queue = []) (id : RecallId) : r.accept id = { r with
    queue := [{ id := id, blocksSent := 0, gapsSent := 0 }], cursor := some id.start, pos := some id.start } := by
  simp only [Recall.accept, hempty, List.nil_append]

/-- Settles O38: the request passes every test and joins the queue. -/
theorem recallAccepted : Obligations.RecallAccepted := by
  intro k tag holder source mask first last src s hreset hother hactive hholder hsource hrange hmask hmirror
    hnew hroom id
  have hpasses : ¬ (6000 ≤ (last - first).toNat ∨ mask = 0 ∨
      (src ≠ s.control.id ∧ s.control.charter.mirrorShare = 0)) := by
    rintro (h | h | ⟨hne, hzero⟩)
    · omega
    · exact hmask h
    · exact hmirror.elim hne fun h => by omega
  have hunique : ¬ (s.server.queue.any fun q => q.id.repeats id) = true := by
    rw [List.any_eq_true]
    rintro ⟨q, hq, hrepeats⟩
    exact hnew q hq ((repeats_iff q.id id).mp hrepeats)
  have htaken : s.takeRecall k tag holder source mask first last =
      s.withServer (s.server.accept id).pump := by
    rw [State.takeRecall, if_pos hholder, judgeRecall_eq hsource, if_neg hpasses, if_neg hunique,
      if_neg (by omega)]
    rfl
  refine ⟨_, exec_recallRequest k tag holder source mask first last hreset hother hactive, ?_⟩
  rw [htaken]
  refine ⟨?_, fun hempty hreading hclaim => ?_, finish_rest _⟩
  · rw [finish_queue]
    exact (pump_queue _).trans (accept_queue _ _)
  · obtain ⟨hlane, hbelow⟩ := exists_lowestLane hmask
    have hkept : (s.withServer (s.server.accept id).pump).finish.server = s.server.accept id := by
      have hrests : (s.server.accept id).pump = s.server.accept id :=
        Recall.pump_of_resting (.inl (by rw [accept_first hempty]; exact hreading))
      rw [State.finish, settleNotices_server, hrests, grant_server]
      · rfl
      · change (s.server.accept id).claim = none
        rw [accept_first hempty]
        exact hclaim
    refine ⟨lowestLane mask, hlane, hbelow, ?_⟩
    rw [hkept, accept_first hempty]
    exact ⟨rfl, rfl⟩

/-! ### A RECALL turned away -/

/-- Settles O39: the four ways in which a request is not accepted, and the end of the command. -/
theorem recallTurnedAway : Obligations.RecallTurnedAway := by
  intro k tag holder source mask first last s hreset hother hactive
  rw [exec_recallRequest k tag holder source mask first last hreset hother hactive]
  refine ⟨fun hholder => ?_, fun q hq hholder hrequester hsource hmask hfirst hlast hrange hlanes hmirror => ?_,
    fun hholder hrefused => ?_, fun hraised hwaits => ?_⟩
  · rw [State.takeRecall, if_neg hholder]
  · have hpasses : ¬ (6000 ≤ (last - first).toNat ∨ mask = 0 ∨
        (q.id.source ≠ s.control.id ∧ s.control.charter.mirrorShare = 0)) := by
      rintro (h | h | ⟨hne, hzero⟩)
      · omega
      · exact hlanes h
      · exact hmirror.elim (fun h => hne (Fin.ext (hsource.trans h))) fun h => by omega
    have hrepeats : (s.server.queue.any fun x => x.id.repeats {
        requester := k, tag := tag, source := q.id.source, mask := mask, first := first, last := last }) = true :=
      List.any_eq_true.mpr ⟨q, hq, (repeats_iff _ _).mpr ⟨hrequester, rfl, hmask, hfirst, hlast⟩⟩
    rw [State.takeRecall, if_pos hholder, judgeRecall_eq hsource.symm, if_neg hpasses, if_pos hrepeats]
  · have hjudged : s.judgeRecall k tag source mask first last = s.refuseRecall k tag := by
      by_cases hstation : 16 ≤ source.toNat
      · exact judgeRecall_of_noStation hstation s k tag mask first last
      · rw [judgeRecall_eq (src := ⟨source.toNat, by omega⟩) rfl]
        split
        · rfl
        · next hpasses =>
          obtain ⟨hrange, hmask, hmirror⟩ : ¬ 6000 ≤ (last - first).toNat ∧ mask ≠ 0 ∧
              ¬ (source.toNat ≠ s.control.id.val ∧ s.control.charter.mirrorShare = 0) :=
            ⟨fun h => hpasses (.inl h), fun h => hpasses (.inr (.inl h)), fun h => hpasses (.inr (.inr
              ⟨fun heq => h.1 (congrArg Fin.val heq), h.2⟩))⟩
          obtain ⟨hfull, hnew⟩ := (((hrefused.resolve_left hstation).resolve_left hrange).resolve_left
            hmask).resolve_left hmirror
          rw [if_neg, if_pos (by omega)]
          rw [List.any_eq_true]
          rintro ⟨q, hq, hrepeats⟩
          obtain ⟨hrequester, hsource, hlanes, hfirst, hlast⟩ := (repeats_iff _ _).mp hrepeats
          exact hnew q hq ⟨hrequester, congrArg Fin.val hsource, hlanes, hfirst, hlast⟩
    rw [State.takeRecall, if_pos hholder, hjudged]
    rfl
  · refine ⟨finish_of_waiting hraised hwaits, ?_⟩
    have hgrant : (s.raise .recallService .recallRefused k.val tag).grant =
        s.raise .recallService .recallRefused k.val tag :=
      hwaits.elim (grant_busy (s.raise .recallService .recallRefused k.val tag))
        (grant_held (s.raise .recallService .recallRefused k.val tag))
    rw [State.finish, hgrant, settleNotices_raise hraised]

end Sys2Proof.Machine
end


section
/-! SUPPORT. Reading an answer (R116, R117, R144 to R148): what a lookup answers, what a read that ended gives,
and how far a gap reaches. -/

namespace Sys2Proof.Machine

/-! ### Lookups (R116, R117) -/

/-- The first record of a ring that has a property. -/
theorem find_first {α : Type} {p : α → Bool} {l more rest : List α} {x : α} (hsplit : l = more ++ x :: rest)
    (hx : p x = true) (hmore : ∀ y ∈ more, p y = false) : l.find? p = some x := by
  have hnone : more.find? p = none := List.find?_eq_none.mpr fun y hy => by rw [hmore y hy]; decide
  rw [hsplit, List.find?_append, hnone, Option.none_or, List.find?_cons_of_pos hx]

section Own

variable {g : Rings} {t : Slice} (l : Lane)

theorem lookupOwn_of_record {p : PageRecord} (h : g.own.pages.find? (fun p => decide (p.slice = t)) = some p) :
    g.lookupOwn t l = p.answer l := by
  rw [Rings.lookupOwn, h]

theorem lookupOwn_of_after (hnone : g.own.pages.find? (fun p => decide (p.slice = t)) = none) {h : Slice}
    (hhigh : g.own.high = some h) (hafter : before h t = true) : g.lookupOwn t l = .notYet := by
  rw [Rings.lookupOwn, hnone, hhigh]
  exact if_pos hafter

theorem lookupOwn_of_empty (hnot : ¬ ∃ h, g.own.high = some h ∧ before h t = true)
    (hempty : g.own.pages = []) : g.lookupOwn t l = .beforeRetention := by
  rw [Rings.lookupOwn, hempty]
  dsimp only [List.find?_nil]
  cases hhigh : g.own.high with
  | none => rfl
  | some h => exact if_neg fun hafter => hnot ⟨h, hhigh, hafter⟩

theorem lookupOwn_of_cons (hnone : g.own.pages.find? (fun p => decide (p.slice = t)) = none)
    (hnot : ¬ ∃ h, g.own.high = some h ∧ before h t = true) {p : PageRecord} {rest : List PageRecord}
    (hpages : g.own.pages = p :: rest) :
    g.lookupOwn t l = if before t p.slice then .beforeRetention else .missing := by
  rw [Rings.lookupOwn, hnone, hpages]
  cases hhigh : g.own.high with
  | none => rfl
  | some h => exact if_neg fun hafter => hnot ⟨h, hhigh, hafter⟩

end Own

section Mirror

variable {g : Rings} {k : StationId} {t : Slice}

/-- A slice lies in a run of a station's mirrored pages (R110). -/
theorem inRun_iff : (g.runs.any fun u => decide (u.source = k) && u.covers t) = true ↔
    ∃ u ∈ g.runs, u.source = k ∧ before t u.first = false ∧ before u.last t = false := by
  simp only [List.any_eq_true, Run.covers, Bool.and_eq_true, decide_eq_true_eq, Bool.not_eq_true']

variable (current : Option StationId) (l : Lane)

theorem lookupMirror_in (hin : (g.runs.any fun u => decide (u.source = k) && u.covers t) = true) :
    (∀ p, g.mirror.pages.find? (fun p => decide (p.slice = t ∧ p.source = k)) = some p →
      g.lookupMirror current k t l = p.answer l) ∧
    (g.mirror.pages.find? (fun p => decide (p.slice = t ∧ p.source = k)) = none →
      g.lookupMirror current k t l = .missing) := by
  rw [Rings.lookupMirror, if_pos hin]
  exact ⟨fun p hp => by rw [hp], fun hnone => by rw [hnone]⟩

theorem lookupMirror_out (hout : ¬ (g.runs.any fun u => decide (u.source = k) && u.covers t) = true) :
    g.lookupMirror current k t l =
      if current = some k ∧ ∃ u, openRunOf g.runs k = some u ∧ before u.last t = true
        then .notYet else .missing := by
  rw [Rings.lookupMirror, if_neg hout]
  by_cases hcurrent : current = some k
  · rw [if_pos hcurrent]
    cases hopen : openRunOf g.runs k with
    | none => exact (if_neg fun ⟨_, u, hu, _⟩ => nomatch hu).symm
    | some u =>
      by_cases hlast : before u.last t = true
      · rw [if_pos ⟨hcurrent, u, rfl, hlast⟩]
        exact if_pos hlast
      · rw [if_neg fun ⟨_, v, hv, hbefore⟩ => hlast (Option.some.inj hv ▸ hbefore)]
        exact if_neg hlast
  · rw [if_neg hcurrent, if_neg fun h => hcurrent h.1]

end Mirror

/-! ### How far a gap reaches (R146) -/

theorem runEnd_spec (same : Slice → Bool) (n : Nat) (t : Slice) : ∃ m ≤ n,
    runEnd same n t = t + BitVec.ofNat 32 m ∧
    (∀ j, 0 < j → j ≤ m → same (t + BitVec.ofNat 32 j) = true) ∧
    (m < n → same (t + BitVec.ofNat 32 (m + 1)) = false) := by
  induction n generalizing t with
  | zero => exact ⟨0, Nat.le_refl 0, (BitVec.add_zero t).symm, fun j hj hle => by omega, nofun⟩
  | succ n ih =>
    rw [runEnd]
    have hstep (j : Nat) : t + 1 + BitVec.ofNat 32 j = t + BitVec.ofNat 32 (j + 1) := by
      rw [BitVec.add_assoc, BitVec.add_comm 1, BitVec.ofNat_add]
      rfl
    by_cases hsame : same (t + 1) = true
    · obtain ⟨m, hm, hend, hall, hnext⟩ := ih (t + 1)
      rw [if_pos hsame]
      refine ⟨m + 1, by omega, by rw [hend, hstep], fun j hj hle => ?_, fun hlt => ?_⟩
      · obtain ⟨i, rfl⟩ : ∃ i, j = i + 1 := ⟨j - 1, by omega⟩
        cases i with
        | zero => exact hsame
        | succ i => rw [← hstep]; exact hall (i + 1) (by omega) (by omega)
      · rw [← hstep]
        exact hnext (by omega)
    · rw [if_neg hsame]
      refine ⟨0, Nat.zero_le _, (BitVec.add_zero t).symm, fun j hj hle => by omega, fun _ => ?_⟩
      exact Bool.eq_false_iff.mpr hsame

theorem slice_ahead (t u : Slice) : u = t + BitVec.ofNat 32 (u - t).toNat := by
  rw [BitVec.ofNat_toNat, BitVec.setWidth_eq]
  bv_omega

/-- The slices a gap covers: those after its first up to its last give the same answer, and that behind its
last, unless it is the request's last, another. -/
theorem runEnd_reaches (same : Slice → Bool) (last t : Slice) :
    (runEnd same (last - t).toNat t - t).toNat ≤ (last - t).toNat ∧
    (∀ u, u ≠ t → (u - t).toNat ≤ (runEnd same (last - t).toNat t - t).toNat → same u = true) ∧
    (runEnd same (last - t).toNat t ≠ last → same (runEnd same (last - t).toNat t + 1) = false) := by
  obtain ⟨m, hm, hend, hall, hnext⟩ := runEnd_spec same (last - t).toNat t
  have hbound := (last - t).isLt
  have hback : (t + BitVec.ofNat 32 m - t).toNat = m := by
    rw [BitVec.add_comm, BitVec.add_sub_cancel, BitVec.toNat_ofNat, Nat.mod_eq_of_lt (by omega)]
  rw [hend, hback]
  refine ⟨hm, fun u hne hu => ?_, fun hne => ?_⟩
  · rw [slice_ahead t u]
    refine hall _ (Nat.pos_of_ne_zero fun h => hne ?_) hu
    rw [slice_ahead t u, h]
    exact BitVec.add_zero t
  · have hlt : m < (last - t).toNat := by
      refine Nat.lt_of_le_of_ne hm fun h => hne ?_
      rw [h]
      exact (slice_ahead t last).symm
    have hsucc : t + BitVec.ofNat 32 m + 1 = t + BitVec.ofNat 32 (m + 1) := by
      rw [BitVec.add_assoc, BitVec.ofNat_add]
      rfl
    rw [hsucc]
    exact hnext hlt

/-- Where all up to the request's last slice give the same answer, the gap reaches it. -/
theorem runEnd_of_all {same : Slice → Bool} {last t : Slice}
    (hall : ∀ u, (u - t).toNat ≤ (last - t).toNat → same u = true) :
    runEnd same (last - t).toNat t = last := by
  obtain ⟨hreach, -, hnext⟩ := runEnd_reaches same last t
  refine not_not.mp fun hne => ?_
  have hlt : (runEnd same (last - t).toNat t - t).toNat ≠ (last - t).toNat := fun h =>
    hne (by rw [slice_ahead t (runEnd same (last - t).toNat t), h, ← slice_ahead t last])
  generalize runEnd same (last - t).toNat t = e at *
  have hsucc : (e + 1 - t).toNat ≤ (last - t).toNat := by bv_omega
  exact nomatch (hnext hne).symm.trans (hall _ hsucc)

end Sys2Proof.Machine
end


section
/-! SUPPORT. The items an answer is made of (R125, R144 to R147). -/

namespace Sys2Proof.Machine

/-! ### The item of a read that ended -/

/-- What the recall service holds after an item was produced at a slot of a request. -/
def Recall.answered (r : Recall) (id : RecallId) (t : Slice) (l : Lane) (item : RecallItem) (next : Place) :
    Recall :=
  { r with
    buffer := r.buffer ++ [{ request := id, place := .slot t l, handed := false, item := item }]
    pos := some { request := id, place := next } }

/-- What it holds when the read in flight ended with an item. -/
def Recall.afterRead (r : Recall) (id : RecallId) (t : Slice) (l : Lane) (item : RecallItem) (next : Place) :
    Recall :=
  { r with
    buffer := r.buffer ++ [{ request := id, place := .slot t l, handed := false, item := item }]
    inFlight := none, pos := some { request := id, place := next } }

theorem afterRead_used (r : Recall) (id : RecallId) (t : Slice) (l : Lane) (item : RecallItem) (next : Place) :
    (r.afterRead id t l item next).used = r.used + item.size :=
  r.produce_used { request := id, place := .slot t l } item next

/-- The item of a slot read: the block read, or the CORRUPT gap of its lane (R125, R145). -/
def readItem (slot : Option RecallItem) (t : Slice) (l : Lane) : RecallItem :=
  slot.getD (.gap (BitVec.twoPow 8 l.val) t t .corrupt)

section Ended

variable {r : Recall} {id : RecallId} {t : Slice} {l : Lane} (slot : Option RecallItem)

theorem readEnded_kept
    (hflight : r.inFlight = some { pos := { request := id, place := .slot t l }, discard := false }) :
    r.readEnded slot = r.afterRead id t l (readItem slot t l) (id.afterLane t l) := by
  rw [Recall.readEnded, hflight]
  rfl

theorem readEnded_discarded
    (hflight : r.inFlight = some { pos := { request := id, place := .slot t l }, discard := true }) :
    r.readEnded slot = { r with inFlight := none } := by
  rw [Recall.readEnded, hflight]
  rfl

end Ended

/-! ### The place behind a lane (R145) -/

theorem afterLane_of_next {id : RecallId} {t : Slice} {l k : Lane} (hnext : nextLane id.mask l = some k) :
    id.afterLane t l = .slot t k := by
  rw [RecallId.afterLane, hnext]

theorem afterLane_of_last {id : RecallId} {t : Slice} {l : Lane} (hnext : nextLane id.mask l = none) :
    id.afterLane t l = id.afterSlice t := by
  rw [RecallId.afterLane, hnext]

theorem afterSlice_last (id : RecallId) : id.afterSlice id.last = .done := if_pos rfl

/-! ### The DONE item (R147) -/

theorem requestRecord_eq {queue ahead rest : List RecallRequest} {q : RecallRequest} {id : RecallId}
    (hqueue : queue = ahead ++ q :: rest) (hahead : ∀ x ∈ ahead, x.id ≠ id) (hq : q.id = id) :
    requestRecord queue id = some q :=
  find_first hqueue (decide_eq_true hq) fun x hx => decide_eq_false (hahead x hx)

theorem behind_eq {ahead rest : List RecallRequest} {q : RecallRequest} {id : RecallId}
    (hahead : ∀ x ∈ ahead, x.id ≠ id) (hq : q.id = id) :
    behind (ahead ++ q :: rest) id = rest.head?.map RecallRequest.id := by
  induction ahead with
  | nil => cases rest <;> exact if_pos hq
  | cons a ahead ih =>
    have hskip : behind (a :: (ahead ++ q :: rest)) id = behind (ahead ++ q :: rest) id :=
      if_neg (hahead a List.mem_cons_self)
    exact hskip.trans (ih fun x hx => hahead x (List.mem_cons_of_mem _ hx))

/-- The DONE item of a request at the buffer's end. -/
def Recall.doneOf (r : Recall) (q : RecallRequest) : BufferItem :=
  { request := q.id, place := .done, handed := false
    item := .done (q.blocksSent + r.buffer.countP fun i => i.isBlockOf q.id)
      (q.gapsSent + r.buffer.countP fun i => i.isGapOf q.id) }

section Done

variable {r : Recall} {q : RecallRequest} {ahead rest : List RecallRequest}
  (hreading : r.reading = true) (hclaim : r.claim = none) (hlive : r.readLive = false)
  (hpos : r.pos = some { request := q.id, place := .done })
  (hnew : (r.buffer.any fun i => i.isDoneOf q.id) = false)
  (hqueue : r.queue = ahead ++ q :: rest) (hahead : ∀ x ∈ ahead, x.id ≠ q.id)

include hreading hclaim hlive hpos hnew hqueue hahead

/-- The DONE item is produced, and production goes on behind it. -/
theorem pump_done (hroom : r.used + 8 ≤ 19940) : ∃ n, r.pump = Recall.pumpFrom (n + 1) { r with
    buffer := r.buffer ++ [r.doneOf q]
    pos := some (((rest.head?.map RecallRequest.id).map RecallId.start).getD
      { request := q.id, place := .done }) } := by
  have hitem : r.doneItem q.id = (r.doneOf q).item := by
    rw [Recall.doneItem, requestRecord_eq hqueue hahead rfl]
    rfl
  have hafter : r.afterDone q.id = ((rest.head?.map RecallRequest.id).map RecallId.start).getD
      { request := q.id, place := .done } := by
    rw [Recall.afterDone, hqueue, behind_eq hahead rfl]
    cases rest <;> rfl
  have hlength : r.queue.length = ahead.length + rest.length + 1 := by
    rw [hqueue, List.length_append, List.length_cons]
    omega
  refine ⟨ahead.length + rest.length, ?_⟩
  rw [Recall.pump_of_producing hreading hclaim hlive,
    pumpFrom_of_done hpos rfl hnew (by rw [Recall.roomLeft_eq]; omega), hitem, hafter, hlength]
  rfl

/-- The last request's DONE item: the read position rests there. -/
theorem pump_done_last (hroom : r.used + 8 ≤ 19940) (hlast : rest = []) : r.pump = { r with
    buffer := r.buffer ++ [r.doneOf q], pos := some { request := q.id, place := .done } } := by
  obtain ⟨n, h⟩ := pump_done hreading hclaim hlive hpos hnew hqueue hahead hroom
  have hmade : ((r.buffer ++ [r.doneOf q]).any fun i => i.isDoneOf q.id) = true := by
    rw [List.any_append]
    simp [Recall.doneOf, BufferItem.isDoneOf]
  rw [h, hlast]
  exact pumpFrom_of_rest rfl rfl hmade

/-- Behind a DONE item the next request's first claim is presented. -/
theorem pump_done_next {n : RecallRequest} {more : List RecallRequest} (hroom : r.used + 344 ≤ 19940)
    (hnext : rest = n :: more) : r.pump = { r with
      buffer := r.buffer ++ [r.doneOf q], pos := some n.id.start
      claim := some { source := n.id.source, slice := n.id.first, lane := lowestLane n.id.mask } } := by
  obtain ⟨m, h⟩ := pump_done hreading hclaim hlive hpos hnew hqueue hahead (by omega)
  have hleft : 336 ≤ Recall.roomLeft { r with
      buffer := r.buffer ++ [r.doneOf q], pos := some n.id.start } := by
    have hused : Recall.used { r with buffer := r.buffer ++ [r.doneOf q], pos := some n.id.start } =
        r.used + 8 := r.produce_used { request := q.id, place := .done } (r.doneOf q).item .done
    rw [Recall.roomLeft_eq, hused]
    omega
  rw [h, hnext]
  refine (pumpFrom_of_slot (p := n.id.start) rfl rfl).trans ?_
  rw [List.head?_cons, Option.map_some, Option.map_some, Option.getD_some]
  exact if_pos hleft

end Done

/-! ### Gap items (R146) -/

theorem flagBit_true (i : Nat) : flagBit 8 true i = BitVec.twoPow 8 i := rfl

section Gap

variable {s : State} {r : RecallId} {t : Slice} {l : Lane}
  (hpos : s.server.pos = some { request := r, place := .slot t l })

include hpos

theorem produceLookup_absent : s.produceLookup .absent = s.withServer
    (s.server.answered r t l (.gap (BitVec.twoPow 8 l.val) t t .absent) (r.afterLane t l)) := by
  rw [State.produceLookup, hpos]
  rfl

/-- A lookup that found no page gives a gap of whole pages. -/
theorem produceLookup_gapRun {found : Lookup} {o : GapOutcome}
    (hfound : (found, o) ∈ [(Lookup.notYet, GapOutcome.notYet), (.beforeRetention, .beforeRetention),
      (.missing, .missing)]) :
    s.produceLookup found = s.withServer (s.server.answered r t l
      (r.gapRun t l (fun u => decide (s.lookup r.source u l = found)) o).1
      (r.gapRun t l (fun u => decide (s.lookup r.source u l = found)) o).2) := by
  rw [State.produceLookup, hpos]
  simp only [List.mem_cons, Prod.mk.injEq, List.not_mem_nil, or_false] at hfound
  obtain ⟨rfl, rfl⟩ | ⟨rfl, rfl⟩ | ⟨rfl, rfl⟩ := hfound <;> rfl

end Gap

theorem gapRun_lowest {r : RecallId} {t : Slice} {l : Lane} (hl : l = lowestLane r.mask) (same : Slice → Bool)
    (o : GapOutcome) : r.gapRun t l same o =
      (.gap r.mask t (runEnd same (r.last - t).toNat t) o,
        r.afterSlice (runEnd same (r.last - t).toNat t)) := if_pos hl

theorem gapRun_higher {r : RecallId} {t : Slice} {l : Lane} (hl : l ≠ lowestLane r.mask)
    (same : Slice → Bool) (o : GapOutcome) :
    r.gapRun t l same o = (.gap (lanesFrom r.mask l) t t o, r.afterSlice t) := if_neg hl

/-- The lanes of a gap that begins above the lowest lane. -/
theorem lanesFrom_getLsbD (mask : BitVec 8) (l i : Lane) :
    (lanesFrom mask l).getLsbD i.val = (decide (l ≤ i) && mask.getLsbD i.val) := by
  have hle : l ≤ i ↔ ¬ i.val < l.val := by rw [Fin.le_def]; omega
  rw [lanesFrom, BitVec.getLsbD_shiftLeft, BitVec.getLsbD_ushiftRight]
  by_cases h : i.val < l.val
  · simp [h, hle]
  · have hplace : l.val + (i.val - l.val) = i.val := by omega
    simp [h, hle, hplace]

end Sys2Proof.Machine
end


section
/-! SUPPORT. The end of a slot read, part by part (R125, R133, R144 to R148, R151). -/

namespace Sys2Proof.Machine

/-! ### The read that ends while ST_WAIT is held -/

section Fetched

variable {c : Claim} {page : Nat} (damage : List (Fin 512 × Byte)) {r : RecallId} {t : Slice} {l : Lane}
  {s : State} (hreset : s.resetN = true) (hwait : s.stWait = true)
  (hop : s.store.op = some (.readSlot c page)) (hpage : page < storePages s.control.sizeCode)

include hreset hwait hop hpage

theorem exec_slotReadEnd_held : exec (.slotReadEnd damage) s =
    .next (s.slotFetched c page damage).settleNotices := by
  have hexists : s.pageExists page = true := decide_eq_true hpage
  have hend := finish_held (s := s.slotFetched c page damage) hwait
  change execSlotReadEnd damage s = _
  rw [execSlotReadEnd, hop]
  dsimp only
  rw [if_pos hexists, whenRunning_high hreset, hend]

end Fetched

theorem slotFetched_server (s : State) (c : Claim) (page : Nat) (damage : List (Fin 512 × Byte)) :
    (s.slotFetched c page damage).server = (s.server.readEnded (s.fetchSlot c page damage)).pump := rfl

theorem slotFetched_rest (s : State) (c : Claim) (page : Nat) (damage : List (Fin 512 × Byte)) :
    (s.slotFetched c page damage).settleNotices = { s with
      store := { s.store with op := none }
      server := (s.slotFetched c page damage).settleNotices.server
      notices := (s.slotFetched c page damage).settleNotices.notices
      freeUses := (s.slotFetched c page damage).settleNotices.freeUses, raised := [] } := rfl

/-- What a fetched slot gives: its block when it verifies, else a CORRUPT gap (R125, R145). -/
theorem readItem_fetchSlot (s : State) (c : Claim) (page : Nat) (damage : List (Fin 512 × Byte)) (t : Slice)
    (l : Lane) :
    let bytes := damaged (Memory.readBytes s.dram (slotAddress page c.lane) 512) damage
    readItem (s.fetchSlot c page damage) t l = if slotGood bytes c then
        .block (slotBlock bytes c) (byteAt bytes 10)
          (decide (c.source = s.control.id) && (byteAt bytes 11).getLsbD 2)
      else .gap (BitVec.twoPow 8 l.val) t t .corrupt := by
  intro bytes
  by_cases hgood : slotGood bytes c = true
  · rw [if_pos hgood, State.fetchSlot, if_pos hgood]
    rfl
  · rw [if_neg hgood, State.fetchSlot, if_neg hgood]
    rfl

theorem fetchSlot_block {s : State} {c : Claim} {page : Nat} {damage : List (Fin 512 × Byte)} {i : RecallItem}
    (hi : s.fetchSlot c page damage = some i) : ∃ b c u, i = .block b c u := by
  unfold State.fetchSlot at hi
  dsimp only at hi
  split at hi
  · exact ⟨_, _, _, (Option.some.inj hi).symm⟩
  · exact nomatch hi

section Ended

variable {r : Recall} {id : RecallId} {t : Slice} {l : Lane} (slot : Option RecallItem)

/-- Outside a reading period the item joins the buffer, and no more is produced. -/
theorem readEnded_closed {discard : Bool} (hreading : r.reading = false)
    (hflight : r.inFlight = some { pos := { request := id, place := .slot t l }, discard := discard }) :
    (r.readEnded slot).pump.buffer = r.buffer ++ (if discard = true then [] else
      [{ request := id, place := .slot t l, handed := false, item := readItem slot t l }]) ∧
    (r.readEnded slot).pump = { r with
      buffer := (r.readEnded slot).pump.buffer, inFlight := none, pos := (r.readEnded slot).pump.pos } := by
  cases discard with
  | true =>
    have hpump : Recall.pump { r with inFlight := none } = { r with inFlight := none } :=
      Recall.pump_of_resting (.inl hreading)
    rw [readEnded_discarded slot hflight, hpump]
    exact ⟨(List.append_nil _).symm, rfl⟩
  | false =>
    have hpump : (r.afterRead id t l (readItem slot t l) (id.afterLane t l)).pump =
        r.afterRead id t l (readItem slot t l) (id.afterLane t l) := Recall.pump_of_resting (.inl hreading)
    rw [readEnded_kept slot hflight, hpump]
    exact ⟨rfl, rfl⟩

/-- A read's item is no DONE item. -/
theorem readItem_notDone (hslot : ∀ i, slot = some i → ∃ b c u, i = .block b c u) :
    BufferItem.isDoneOf { request := id, place := .slot t l, handed := false, item := readItem slot t l } id =
      false := by
  cases slot with
  | none => exact Bool.and_false _
  | some i =>
    obtain ⟨b, c, u, rfl⟩ := hslot i rfl
    exact Bool.and_false _

variable (hreading : r.reading = true) (hclaim : r.claim = none)
  (hflight : r.inFlight = some { pos := { request := id, place := .slot t l }, discard := false })

include hreading hclaim hflight

/-- In a reading period the next lane's claim is presented. -/
theorem readEnded_lane {k : Lane} (hnext : nextLane id.mask l = some k)
    (hroom : r.used + (readItem slot t l).size + 336 ≤ 19940) :
    (r.readEnded slot).pump = { r.afterRead id t l (readItem slot t l) (.slot t k) with
      claim := some { source := id.source, slice := t, lane := k } } := by
  have hused := afterRead_used r id t l (readItem slot t l) (.slot t k)
  have hleft : 336 ≤ (r.afterRead id t l (readItem slot t l) (.slot t k)).roomLeft := by
    rw [Recall.roomLeft_eq, hused]
    omega
  have hpump := Recall.pump_of_producing (r := r.afterRead id t l (readItem slot t l) (.slot t k))
    hreading hclaim rfl
  rw [readEnded_kept slot hflight, afterLane_of_next hnext, hpump,
    pumpFrom_of_slot (t := t) (l := k) rfl rfl, if_pos hleft]

end Ended

section LastLane

variable {r : Recall} {q : RecallRequest} {ahead rest : List RecallRequest} {l : Lane}
  {slot : Option RecallItem} (hreading : r.reading = true) (hclaim : r.claim = none)
  (hflight : r.inFlight =
    some { pos := { request := q.id, place := .slot q.id.last l }, discard := false })
  (hslot : ∀ i, slot = some i → ∃ b c u, i = .block b c u) (hnext : nextLane q.id.mask l = none)
  (hnew : ∀ i ∈ r.buffer, i.isDoneOf q.id = false)
  (hqueue : r.queue = ahead ++ q :: rest) (hahead : ∀ x ∈ ahead, x.id ≠ q.id)

include hflight hnext in
theorem readEnded_lastLane : r.readEnded slot =
    r.afterRead q.id q.id.last l (readItem slot q.id.last l) .done := by
  rw [readEnded_kept slot hflight, afterLane_of_last hnext, afterSlice_last]

include hslot hnew in
theorem afterRead_notDone :
    ((r.afterRead q.id q.id.last l (readItem slot q.id.last l) .done).buffer.any
      fun i => i.isDoneOf q.id) = false := by
  rw [Recall.afterRead, List.any_append, List.any_cons, List.any_nil, readItem_notDone slot hslot, Bool.or_false,
    Bool.or_false, List.any_eq_false]
  exact fun i hi => by rw [hnew i hi]; decide

include hreading hclaim hflight hslot hnext hnew hqueue hahead

/-- After the last lane of the last slice of the last request its DONE item is produced. -/
theorem readEnded_last (hroom : r.used + (readItem slot q.id.last l).size + 8 ≤ 19940) (hlast : rest = []) :
    let read := r.afterRead q.id q.id.last l (readItem slot q.id.last l) .done
    (r.readEnded slot).pump = { read with buffer := read.buffer ++ [read.doneOf q] } := by
  intro read
  have hused := afterRead_used r q.id q.id.last l (readItem slot q.id.last l) .done
  rw [readEnded_lastLane hflight hnext]
  exact pump_done_last (r := read) hreading hclaim rfl rfl (afterRead_notDone hslot hnew) hqueue hahead
    (hused.symm ▸ hroom) hlast

/-- Behind it the next request begins. -/
theorem readEnded_next {n : RecallRequest} {more : List RecallRequest}
    (hroom : r.used + (readItem slot q.id.last l).size + 344 ≤ 19940) (hmore : rest = n :: more) :
    let read := r.afterRead q.id q.id.last l (readItem slot q.id.last l) .done
    (r.readEnded slot).pump = { read with
      buffer := read.buffer ++ [read.doneOf q], pos := some n.id.start
      claim := some { source := n.id.source, slice := n.id.first, lane := lowestLane n.id.mask } } := by
  intro read
  have hused := afterRead_used r q.id q.id.last l (readItem slot q.id.last l) .done
  rw [readEnded_lastLane hflight hnext]
  exact pump_done_next (r := read) hreading hclaim rfl rfl (afterRead_notDone hslot hnew) hqueue hahead
    (hused.symm ▸ hroom) hmore

end LastLane

/-! ### The answer that ends the last request (R133, R146) -/

/-- The claim answered by a gap of whole pages up to the request's last slice. -/
def Recall.wholeGap (r : Recall) (id : RecallId) (t : Slice) (l : Lane) (o : GapOutcome) : Recall :=
  Recall.answered { r with claim := none } id t l (.gap id.mask t id.last o) .done

theorem wholeGap_used (r : Recall) (id : RecallId) (t : Slice) (l : Lane) (o : GapOutcome) :
    (r.wholeGap id t l o).used = r.used + 16 :=
  r.produce_used { request := id, place := .slot t l } (.gap id.mask t id.last o) .done

theorem wholeGap_buffer (r : Recall) (id : RecallId) (t : Slice) (l : Lane) (o : GapOutcome) :
    (r.wholeGap id t l o).buffer = r.buffer ++
      [{ request := id, place := .slot t l, handed := false, item := .gap id.mask t id.last o }] := rfl

theorem wholeGap_notDone {r : Recall} {id : RecallId} (hnew : ∀ i ∈ r.buffer, i.isDoneOf id = false)
    (t : Slice) (l : Lane) (o : GapOutcome) :
    ((r.wholeGap id t l o).buffer.any fun i => i.isDoneOf id) = false := by
  rw [wholeGap_buffer, List.any_append, List.any_cons, List.any_nil, Bool.or_false, Bool.or_eq_false_iff,
    List.any_eq_false]
  exact ⟨fun i hi => by rw [hnew i hi]; decide, Bool.and_false _⟩

/-- The DONE item counts the gap before it. -/
theorem wholeGap_doneOf (r : Recall) (q : RecallRequest) (t : Slice) (l : Lane) (o : GapOutcome) :
    (r.wholeGap q.id t l o).doneOf q =
      { request := q.id, place := .done, handed := false
        item := .done (q.blocksSent + r.buffer.countP fun i => i.isBlockOf q.id)
          (q.gapsSent + r.buffer.countP (fun i => i.isGapOf q.id) + 1) } := by
  rw [Recall.doneOf, wholeGap_buffer, List.countP_append, List.countP_append, List.countP_singleton,
    List.countP_singleton]
  simp only [BufferItem.isBlockOf, BufferItem.isGapOf, decide_true, Bool.and_false, Bool.and_true,
    Bool.false_eq_true, if_false, if_true, Nat.add_zero, Nat.add_assoc]

/-- With nothing to do the grant ends. -/
theorem grantFrom_of_nothing {s : State} {n : Nat} (hs : s.Serving) (hcapture : s.store.captureClaim = none)
    (hmirror : s.store.mirror = []) (hclaim : s.server.claim = none) (hdebt : s.store.debt = 0) :
    s.grantFrom (n + 1) = s := by
  rw [grantFrom_of_routine hs hcapture hmirror hclaim, if_neg (by omega),
    show s.store.debt - 1 = s.store.debt by omega, ← hs.idle]
  rfl

section Answered

variable {q : RecallRequest} {t : Slice} {l : Lane} {found : Lookup} {o : GapOutcome} {s : State}
  (hreading : s.server.reading = true) (hflight : s.server.inFlight = none)
  (hpos : s.server.pos = some { request := q.id, place := .slot t l }) (hqueue : s.server.queue = [q])
  (hnew : ∀ i ∈ s.server.buffer, i.isDoneOf q.id = false) (hroom : s.server.used + 24 ≤ 19940)
  (hl : q.id.mask.getLsbD l.val = true) (hbelow : ∀ j : Lane, j < l → q.id.mask.getLsbD j.val = false)
  (hfound : (found, o) ∈ [(Lookup.notYet, GapOutcome.notYet), (.beforeRetention, .beforeRetention),
    (.missing, .missing)])
  (hall : ∀ u : Slice, (u - t).toNat ≤ (q.id.last - t).toNat → s.lookup q.id.source u l = found)

include hreading hflight hqueue hnew hroom in
theorem pump_wholeGap : (s.server.wholeGap q.id t l o).pump = { s.server.wholeGap q.id t l o with
    buffer := (s.server.wholeGap q.id t l o).buffer ++ [(s.server.wholeGap q.id t l o).doneOf q] } := by
  have hlive : (s.server.wholeGap q.id t l o).readLive = false := by
    change s.server.readLive = false
    rw [Recall.readLive, hflight]
  have hused := wholeGap_used s.server q.id t l o
  exact pump_done_last (q := q) (ahead := []) (rest := []) hreading rfl hlive rfl
    (wholeGap_notDone hnew t l o) hqueue nofun (by omega) rfl

include hreading hflight hpos hqueue hnew hroom hl hbelow hfound hall

/-- The gap to the request's last slice and the DONE item behind it. -/
theorem answerClaim_whole : s.answerClaim found = s.withServer { s.server with
    claim := none, pos := some { request := q.id, place := .done }
    buffer := s.server.buffer ++
      [{ request := q.id, place := .slot t l, handed := false, item := .gap q.id.mask t q.id.last o },
       { request := q.id, place := .done, handed := false
         item := .done (q.blocksSent + s.server.buffer.countP fun i => i.isBlockOf q.id)
           (q.gapsSent + s.server.buffer.countP (fun i => i.isGapOf q.id) + 1) }] } := by
  have hgap := produceLookup_gapRun (s := s.withServer { s.server with claim := none }) hpos hfound
  have hreach : runEnd (fun u => decide ((s.withServer { s.server with claim := none }).lookup q.id.source u l =
      found)) (q.id.last - t).toNat t = q.id.last := runEnd_of_all fun u hu => decide_eq_true (hall u hu)
  rw [gapRun_lowest (lowestLane_eq hl hbelow).symm, hreach, afterSlice_last] at hgap
  have hpump := pump_wholeGap (t := t) (l := l) (o := o) hreading hflight hqueue hnew hroom
  rw [wholeGap_doneOf, wholeGap_buffer, List.append_assoc] at hpump
  rw [State.answerClaim, hgap]
  exact congrArg s.withServer hpump

/-- The grant that takes the claim goes on until nothing is left to answer. -/
theorem grant_answered (hs : s.Serving) (hdebt : s.store.debt = 0) (hcapture : s.store.capture = [])
    (hmirror : s.store.mirror = [])
    (hclaim : s.server.claim = some { source := q.id.source, slice := t, lane := l }) :
    s.grant = s.answerClaim found := by
  have hnone : ∀ r, found ≠ .held r := by
    rintro r rfl
    simp at hfound
  have hfirst : s.grant = (s.answerClaim found).grantFrom 1299 :=
    grantFrom_of_answer (n := 1299) hs (captureClaim_of_empty hcapture) hmirror hclaim hpos
      (hall t (by rw [BitVec.sub_self]; exact Nat.zero_le _)) hnone
  rw [hfirst, answerClaim_whole hreading hflight hpos hqueue hnew hroom hl hbelow hfound hall]
  exact grantFrom_of_nothing (n := 1298) (s := s.withServer _) ⟨hs.idle, hs.released, hs.ready, hs.calm⟩
    (captureClaim_of_empty hcapture) hmirror rfl hdebt

end Answered

/-! ### The obligation's parts -/

/-- Settles O40: a read that ended, what the two rings answer, the items of a lookup without a slot, and the
grant that ends the last request. -/
theorem slotReadJoinsBuffer : Obligations.SlotReadJoinsBuffer := by
  refine ⟨fun c page damage r t l discard s hreset hwait hop hpage hflight => ?_, fun g t l => ?_,
    fun g current k t l => ?_, fun r t l s hl hpos => ?_,
    fun q t l c found o s hreset hop hphase hraised hdebt hcapture hmirror hclaim hc hpos hqueue hreading
      hflight hnew hroom hl hbelow hfound hall => ?_⟩
  · intro bytes item
    have hitem : readItem (s.fetchSlot c page damage) t l = item := readItem_fetchSlot s c page damage t l
    have hslot : ∀ i, s.fetchSlot c page damage = some i → ∃ b c u, i = .block b c u :=
      fun _ => fetchSlot_block
    refine ⟨_, exec_slotReadEnd_held damage hreset hwait hop hpage, ?_⟩
    have hserver := slotFetched_server s c page damage
    have hrest := slotFetched_rest s c page damage
    rw [settleNotices_server] at hrest ⊢
    refine ⟨fun hreading => ?_, fun hreading hkeep hclaim k hlt hk hbetween hroom => ?_,
      fun hreading hkeep hclaim hlast habove hnew q ahead rest hqueue hahead hq => ?_, hrest⟩
    · rw [hserver, ← hitem]
      exact readEnded_closed _ hreading hflight
    · subst hkeep
      rw [← hitem] at hroom ⊢
      rw [hserver, readEnded_lane _ hreading hclaim hflight (nextLane_eq hlt hk hbetween) hroom]
      rfl
    · subst hkeep hlast hq
      rw [← hitem]
      intro read room done
      refine ⟨fun hend hroom => ?_, fun n more hmore hroom => ?_⟩
      · rw [hserver, readEnded_last hreading hclaim hflight hslot (nextLane_none habove) hnew hqueue hahead
          hroom hend]
        rfl
      · rw [hserver, readEnded_next hreading hclaim hflight hslot (nextLane_none habove) hnew hqueue hahead
          hroom hmore]
        rfl
  · intro after
    have hmissing (hnone : ∀ p ∈ g.own.pages, p.slice ≠ t) :
        g.own.pages.find? (fun p => decide (p.slice = t)) = none :=
      List.find?_eq_none.mpr fun p hp => by rw [decide_eq_false (hnone p hp)]; decide
    refine ⟨fun p more rest hpages hp hmore => ?_, fun hnone => ⟨?_, fun hnot hempty => ?_,
      fun hnot p rest hpages => ?_⟩⟩
    · exact lookupOwn_of_record l (find_first hpages (decide_eq_true hp) fun q hq =>
        decide_eq_false (hmore q hq))
    · rintro ⟨h, hhigh, hafter⟩
      exact lookupOwn_of_after l (hmissing hnone) hhigh hafter
    · exact lookupOwn_of_empty l hnot hempty
    · exact lookupOwn_of_cons l (hmissing hnone) hnot hpages
  · intro inRun
    refine ⟨fun hin p more rest hpages hp hsource hmore => ?_, fun hin hnone => ?_, fun hout => ?_⟩
    · exact (lookupMirror_in current l (inRun_iff.mpr hin)).1 p
        (find_first hpages (decide_eq_true ⟨hp, hsource⟩) fun q hq => decide_eq_false (hmore q hq))
    · exact (lookupMirror_in current l (inRun_iff.mpr hin)).2
        (List.find?_eq_none.mpr fun p hp => by rw [decide_eq_false (hnone p hp)]; decide)
    · exact lookupMirror_out current l fun hin => hout (inRun_iff.mp hin)
  · intro made after
    refine ⟨fun k hlt hk hbetween => ?_, fun habove => ?_, fun found o hfound => ⟨fun hbelow => ?_,
      fun j hj hbit => ?_⟩⟩
    · rw [produceLookup_absent hpos, afterLane_of_next (nextLane_eq hlt hk hbetween)]
      rfl
    · rw [produceLookup_absent hpos, afterLane_of_last (nextLane_none habove)]
      rfl
    · obtain ⟨hreach, hsame, hother⟩ :=
        runEnd_reaches (fun u => decide (s.lookup r.source u l = found)) r.last t
      refine ⟨_, hreach, fun u hne hu => of_decide_eq_true (hsame u hne hu),
        fun hne => of_decide_eq_false (hother hne), ?_⟩
      rw [produceLookup_gapRun hpos hfound, gapRun_lowest (lowestLane_eq hl hbelow).symm]
      rfl
    · have hhigher : l ≠ lowestLane r.mask := by
        intro h
        have hmask : r.mask ≠ 0 := by
          rintro hzero
          rw [hzero] at hl
          simp at hl
        exact nomatch ((exists_lowestLane hmask).2 j (h ▸ hj)).symm.trans hbit
      refine ⟨lanesFrom r.mask l, lanesFrom_getLsbD r.mask l, ?_⟩
      rw [produceLookup_gapRun hpos hfound, gapRun_higher hhigher]
      rfl
  · subst hc
    have hs : s.released.Serving :=
      ⟨hop, rfl, hphase, by change s.store.debt < 6; rw [hdebt]; decide⟩
    have hgrant := grant_answered (s := s.released) hreading hflight hpos hqueue hnew hroom hl hbelow hfound hall
      hs hdebt hcapture hmirror hclaim
    rw [answerClaim_whole (s := s.released) hreading hflight hpos hqueue hnew hroom hl hbelow hfound hall]
      at hgrant
    rw [exec_stWaitReleased hreset, finish_of_grant hgrant hraised]
    rfl

end Sys2Proof.Machine
end


section
/-! SUPPORT. The span table's operations (R83, R86, R88, R91): what an eviction takes, what an insertion adds,
what an announcement adds to the outbox, and how notices of the span blocks join. -/

namespace Sys2Proof.Machine

/-! ### The order of slices -/

theorem before_asymm {a b : Slice} (h : before a b = true) : before b a = false := by
  rw [before, sliceDiff, decide_eq_true_iff] at h
  rw [before, sliceDiff, decide_eq_false_iff_not]
  rw [BitVec.toInt_eq_toNat_cond] at h ⊢
  split at h <;> split <;> bv_omega

/-! ### Notices of one block (R174) -/

/-- The notices of one block, settled, join in the order in which they were raised. -/
theorem settleNotices_of_raiser {s : State} {b : Raiser} (h : ∀ r ∈ s.raised, r.raiser = b) :
    s.settleNotices = { s with
      notices := (s.raised.map Raised.notice).foldl (NoticeQueue.join s.windowInFlight) s.notices
      raised := [] } := by
  have hmerged := mergeRaised_one s.raised.length s.freeUses s.raised b h
  simp only [State.settleNotices, hmerged]

/-- The state with other notices queued and raised. -/
def State.withNotices (s : State) (q : NoticeQueue) (raised : List Raised) : State :=
  { s with notices := q, raised := raised }

/-- The work of the span blocks on a state: it changes the spans alone, whatever notices are queued and
raised, and raises notices of its own. -/
def SpanWork (f : State → State) (s : State) : Prop := ∃ x added, (∀ r ∈ added, r.raiser = .spans) ∧
  ∀ q raised, f (s.withNotices q raised) = { s with spans := x, notices := q, raised := raised ++ added }

/-- Work that raises nothing. -/
theorem SpanWork.silent {f : State → State} {s : State} (x : Spans)
    (h : ∀ q raised, f (s.withNotices q raised) = { s with spans := x, notices := q, raised := raised }) :
    SpanWork f s :=
  ⟨x, [], nofun, fun q raised => by rw [h, List.append_nil]⟩

theorem SpanWork.idle (s : State) : SpanWork id s := .silent s.spans fun _ _ => rfl

theorem SpanWork.trans {f g : State → State} {s : State} (hf : SpanWork f s)
    (hg : ∀ x, SpanWork g (s.withSpans x)) : SpanWork (fun u => g (f u)) s := by
  obtain ⟨x, added, hadded, h⟩ := hf
  obtain ⟨y, more, hmore, h'⟩ := hg x
  refine ⟨y, added ++ more, fun r hr => (List.mem_append.mp hr).elim (hadded r) (hmore r), fun q raised => ?_⟩
  dsimp only
  rw [h, ← List.append_assoc]
  exact h' q (raised ++ added)

theorem evict_work (s : State) : SpanWork State.evict s := by
  cases harchived : oldestClosed (fun e t => !s.rings.unarchivedSlice e.key.owner t) s.spans.table with
  | some e =>
    refine .silent { s.spans with table := s.spans.table.filter fun x => decide (x.key ≠ e.key) }
      fun q raised => ?_
    unfold State.evict
    simp only [State.withNotices, harchived]
    rfl
  | none =>
    cases holdest : oldestClosed (fun _ _ => true) s.spans.table with
    | some e =>
      refine ⟨{ s.spans with table := s.spans.table.filter fun x => decide (x.key ≠ e.key) },
        [{ raiser := .spans, notice := { kind := .spanEvicted, slice := s.clock.index
                                         subject := byte (seatOf e.key)
                                         detail := BitVec.ofNat 16 e.announcedBy.val } }],
        fun r hr => by rw [List.mem_singleton.mp hr], fun q raised => ?_⟩
      unfold State.evict
      simp only [State.withNotices, harchived, holdest]
      rfl
    | none =>
      refine .silent s.spans fun q raised => ?_
      unfold State.evict
      simp only [State.withNotices, harchived, holdest]

/-- An entry at the table's tail, where there is room. -/
def State.appendEntry (e : SpanEntry) (s : State) : State :=
  if s.spans.table.length < 160 then s.withSpans { s.spans with table := s.spans.table ++ [e] } else s

theorem insertEntry_eq (s : State) (e : SpanEntry) : s.insertEntry e =
    State.appendEntry e (if s.spans.table.length < 160 then s else s.evict) := rfl

theorem appendEntry_work (e : SpanEntry) (s : State) : SpanWork (State.appendEntry e) s := by
  by_cases hroom : s.spans.table.length < 160
  · exact .silent { s.spans with table := s.spans.table ++ [e] } fun q raised => if_pos hroom
  · exact .silent s.spans fun q raised => if_neg hroom

theorem insertEntry_work (e : SpanEntry) (s : State) : SpanWork (fun u => u.insertEntry e) s := by
  have hroom : SpanWork (fun u => if u.spans.table.length < 160 then u else u.evict) s := by
    by_cases hroom : s.spans.table.length < 160
    · exact .silent s.spans fun q raised => if_pos hroom
    · obtain ⟨x, added, hadded, h⟩ := evict_work s
      exact ⟨x, added, hadded, fun q raised => (if_neg hroom).trans (h q raised)⟩
  exact hroom.trans fun x => appendEntry_work e _

theorem insertOpen_work (k : StationId) (i : SpanItem) (s : State) :
    SpanWork (fun u => u.insertOpen k i) s := by
  cases hlive : liveOfSeat s.spans.table (seatOf i.key) with
  | none =>
    obtain ⟨x, added, hadded, h⟩ := insertEntry_work (entryOfItem i k) s
    refine ⟨x, added, hadded, fun q raised => ?_⟩
    rw [← h]
    simp only [State.insertOpen, State.withNotices, hlive]
  | some old =>
    by_cases hbefore : before old.key.openSlice i.key.openSlice = true
    · obtain ⟨x, added, hadded, h⟩ := insertEntry_work (entryOfItem i k) (s.withSpans { s.spans with
        table := updateEntry s.spans.table old.key fun e =>
          e.close (i.key.openSlice - 1) .superseded s.control.id })
      refine ⟨x, added, hadded, fun q raised => ?_⟩
      refine Eq.trans ?_ (h q raised)
      simp only [State.insertOpen, State.withNotices, hlive, hbefore, if_true]
      rfl
    · refine .silent s.spans fun q raised => ?_
      simp only [State.insertOpen, State.withNotices, hlive, hbefore]
      rfl

theorem applyBeaconEntry_work (k : StationId) (i : SpanItem) (s : State) :
    SpanWork (fun u => u.applyBeaconEntry k i) s := by
  by_cases howner : i.key.owner = k
  · cases hentry : entryOf s.spans.table i.key with
    | none =>
      obtain ⟨x, added, hadded, h⟩ := insertOpen_work k i s
      refine ⟨x, added, hadded, fun q raised => Eq.trans ?_ (h q raised)⟩
      simp only [State.applyBeaconEntry, State.withNotices, howner, hentry, if_true]
    | some e =>
      cases hstatus : e.status with
      | orphaned n u =>
        refine .silent { s.spans with table := updateEntry s.spans.table i.key fun x =>
          { x with status := .opened, announcedBy := k } } fun q raised => ?_
        simp only [State.applyBeaconEntry, State.withNotices, howner, hentry, hstatus, if_true]
        rfl
      | opened =>
        refine .silent s.spans fun q raised => ?_
        simp only [State.applyBeaconEntry, State.withNotices, howner, hentry, hstatus, if_true]
      | closed u c =>
        refine .silent s.spans fun q raised => ?_
        simp only [State.applyBeaconEntry, State.withNotices, howner, hentry, hstatus, if_true]
  · exact .silent s.spans fun q raised => if_neg howner

theorem applyBeacon_work (k : StationId) (es : List SpanItem) (s : State) :
    SpanWork (fun u => u.applyBeacon k es) s := by
  induction es generalizing s with
  | nil => exact .idle s
  | cons i es ih => exact (applyBeaconEntry_work k i s).trans fun x => ih _

/-- Work of the span blocks may be settled in between. -/
theorem SpanWork.settle {f : State → State} {s : State} (hf : SpanWork f s)
    (hraised : ∀ r ∈ s.raised, r.raiser = .spans) :
    (f s).settleNotices = (f s.settleNotices).settleNotices := by
  obtain ⟨x, added, hadded, h⟩ := hf
  have hwhole : f s = { s with spans := x, raised := s.raised ++ added } := h s.notices s.raised
  have hafter : f s.settleNotices = { s with
      spans := x, raised := added
      notices := (s.raised.map Raised.notice).foldl (NoticeQueue.join s.windowInFlight) s.notices } := by
    rw [settleNotices_of_raiser hraised]
    exact h _ []
  have hall : ∀ r ∈ s.raised ++ added, r.raiser = .spans := fun r hr =>
    (List.mem_append.mp hr).elim (hraised r) (hadded r)
  rw [hwhole, hafter, settleNotices_of_raiser (s := { s with spans := x, raised := s.raised ++ added }) hall,
    settleNotices_of_raiser (s := { s with spans := x, raised := added, notices := _ }) hadded]
  simp only [List.map_append, List.foldl_append]
  rfl

/-! ### Eviction (R86) -/

theorem oldestClosed_mem {p : SpanEntry → Slice → Bool} {l : List SpanEntry} {f : SpanEntry}
    (h : oldestClosed p l = some f) : f ∈ l ∧ ∃ t, f.endSlice? = some t ∧ p f t = true := by
  induction l generalizing f with
  | nil => exact nomatch h
  | cons e es ih =>
    have tail (h : oldestClosed p es = some f) :
        f ∈ e :: es ∧ ∃ t, f.endSlice? = some t ∧ p f t = true :=
      ⟨List.mem_cons_of_mem _ (ih h).1, (ih h).2⟩
    rw [oldestClosed] at h
    split at h
    · exact tail h
    · next t ht =>
      split at h
      · next hp =>
        have head (h : some e = some f) : f ∈ e :: es ∧ ∃ t, f.endSlice? = some t ∧ p f t = true := by
          obtain rfl := Option.some.inj h
          exact ⟨List.mem_cons_self, t, ht, hp⟩
        split at h
        · exact head h
        · next g hg =>
          split at h
          · exact head h
          · split at h
            · exact tail (hg.trans h)
            · exact head h
      · exact tail h

/-- The one closed entry that ended before all others is the oldest. -/
theorem oldestClosed_eq {p : SpanEntry → Slice → Bool} {l : List SpanEntry} {v : SpanEntry} {u : Slice}
    (hv : v ∈ l) (hend : v.endSlice? = some u) (hp : p v u = true)
    (hoth : ∀ x ∈ l, x ≠ v → ∀ w, x.endSlice? = some w → p x w = true → before u w = true) :
    oldestClosed p l = some v := by
  induction l with
  | nil => exact nomatch hv
  | cons e es ih =>
    have htail : v ∈ es → oldestClosed p es = some v := fun hv =>
      ih hv fun x hx => hoth x (List.mem_cons_of_mem _ hx)
    by_cases he : e = v
    · subst he
      rw [oldestClosed, hend]
      dsimp only
      rw [if_pos hp]
      cases hes : oldestClosed p es with
      | none => rfl
      | some f =>
        obtain ⟨hf, w, hw, hpw⟩ := oldestClosed_mem hes
        dsimp only
        rw [hw]
        dsimp only
        by_cases hsame : f = e
        · subst hsame
          exact ite_self _
        · exact if_neg (by rw [before_asymm (hoth f (List.mem_cons_of_mem _ hf) hsame w hw hpw)]; decide)
    · have hes := htail ((List.mem_cons.mp hv).resolve_left fun h => he h.symm)
      rw [oldestClosed, hes]
      cases hw : e.endSlice? with
      | none => rfl
      | some w =>
        dsimp only
        by_cases hpw : p e w = true
        · rw [if_pos hpw, hend]
          exact if_pos (hoth e List.mem_cons_self he w hw hpw)
        · rw [if_neg hpw]

theorem oldestClosed_none {p : SpanEntry → Slice → Bool} {l : List SpanEntry}
    (h : ∀ x ∈ l, ∀ w, x.endSlice? = some w → p x w = false) : oldestClosed p l = none := by
  cases hold : oldestClosed p l with
  | none => rfl
  | some f =>
    obtain ⟨hf, w, hw, hp⟩ := oldestClosed_mem hold
    exact nomatch (h f hf w hw).symm.trans hp

theorem endSlice_iff (e : SpanEntry) (u : Slice) :
    e.endSlice? = some u ↔ ∃ c, e.status = .closed u c := by
  unfold SpanEntry.endSlice?
  split
  · next t c h => simp [h]
  · next h => simp [h]
  · next h => simp [h]

/-! ### Insertion (R86) -/

theorem insertEntry_of_room {s : State} {e : SpanEntry} (hroom : s.spans.table.length < 160) :
    s.insertEntry e = s.withSpans { s.spans with table := s.spans.table ++ [e] } := by
  rw [insertEntry_eq, if_pos hroom]
  exact if_pos hroom

/-- The table that an eviction has left has room. -/
theorem filter_room {l : List SpanEntry} {v : SpanEntry} (hv : v ∈ l) (hfull : l.length = 160) :
    (l.filter fun x => decide (x.key ≠ v.key)).length < 160 := by
  rw [← hfull]
  exact List.length_filter_lt_length_iff_exists.mpr ⟨v, hv, by simp⟩

section Full

variable {s : State} {e v : SpanEntry} (hfull : s.spans.table.length = 160) (hv : v ∈ s.spans.table)

include hfull hv

theorem insertEntry_of_archived
    (hold : oldestClosed (fun e t => !s.rings.unarchivedSlice e.key.owner t) s.spans.table = some v) :
    s.insertEntry e = s.withSpans { s.spans with
      table := s.spans.table.filter (fun x => decide (x.key ≠ v.key)) ++ [e] } := by
  have hevict : s.evict = s.withSpans { s.spans with
      table := s.spans.table.filter fun x => decide (x.key ≠ v.key) } := by
    rw [State.evict, hold]
  rw [insertEntry_eq, if_neg (by omega), hevict]
  exact if_pos (filter_room hv hfull)

theorem insertEntry_of_unarchived
    (hnone : oldestClosed (fun e t => !s.rings.unarchivedSlice e.key.owner t) s.spans.table = none)
    (hold : oldestClosed (fun _ _ => true) s.spans.table = some v) :
    s.insertEntry e = (s.withSpans { s.spans with
      table := s.spans.table.filter (fun x => decide (x.key ≠ v.key)) ++ [e] }).raise .spans .spanEvicted
        (seatOf v.key) (BitVec.ofNat 16 v.announcedBy.val) := by
  have hevict : s.evict = (s.withSpans { s.spans with
      table := s.spans.table.filter fun x => decide (x.key ≠ v.key) }).raise .spans .spanEvicted
        (seatOf v.key) (BitVec.ofNat 16 v.announcedBy.val) := by
    rw [State.evict, hnone, hold]
  rw [insertEntry_eq, if_neg (by omega), hevict]
  exact if_pos (filter_room hv hfull)

end Full

/-! ### The outbox (R88) -/

theorem announce_of_room {s : State} (i : SpanItem) (hroom : s.spans.outbox.length < 64) :
    s.announce i = s.withSpans { s.spans with outbox := s.spans.outbox ++ [i] } := by
  unfold State.announce
  split
  · next h => rw [h]; rfl
  · exact if_pos hroom

theorem announce_of_full {s : State} (i : SpanItem) {d : SpanItem} {rest : List SpanItem}
    (houtbox : s.spans.outbox = d :: rest) (hfull : 64 ≤ s.spans.outbox.length) :
    s.announce i = (s.withSpans { s.spans with
      outbox := rest ++ [i], outboxDrops := s.spans.outboxDrops + 1 }).raise .spans .outboxOverflow
        (seatOf d.key) (sliceDetail d.key.openSlice) := by
  rw [State.announce, houtbox]
  dsimp only
  rw [← houtbox]
  exact if_neg (Nat.not_lt.mpr hfull)

/-! ### Entries by their keys -/

theorem entryOf_key {table : List SpanEntry} {k : SpanKey} {e : SpanEntry} (h : entryOf table k = some e) :
    e.key = k := of_decide_eq_true (List.find?_some (p := fun e : SpanEntry => decide (e.key = k)) h)

/-- A change that keeps the keys finds no new entry. -/
theorem entryOf_updateEntry_none {table : List SpanEntry} {k j : SpanKey} {f : SpanEntry → SpanEntry}
    (hkey : ∀ e, (f e).key = e.key) (h : entryOf table k = none) :
    entryOf (updateEntry table j f) k = none := by
  rw [entryOf, List.find?_eq_none] at h ⊢
  intro e he
  obtain ⟨x, hx, rfl⟩ := List.mem_map.mp he
  have hx' := h x hx
  split
  · rw [hkey x]
    exact hx'
  · exact hx'

/-- Closing the entry of a key, with the end written out by the key's own open slice. -/
theorem updateEntry_close (table : List SpanEntry) (k : SpanKey) (u : Slice) (c : CloseCause) (j : StationId) :
    updateEntry table k (fun x => x.close u c j) = table.map fun x =>
      if x.key = k then
        { x with status := .closed (if before u k.openSlice then k.openSlice else u) c, announcedBy := j }
      else x := by
  refine List.map_congr_left fun x _ => ?_
  by_cases hx : x.key = k
  · refine (if_pos hx).trans (Eq.trans ?_ (if_pos hx).symm)
    change x.close u c j = _
    rw [SpanEntry.close, endNoEarlier_eq, hx]
  · rw [if_neg hx, if_neg hx]

end Sys2Proof.Machine
end


section
/-! SUPPORT. Span items and beacons received (R89 to R94). -/

namespace Sys2Proof.Machine

theorem hears_of_ne {s : State} {k : StationId} (hother : k ≠ s.control.id) : s.hears k = true :=
  decide_eq_true hother

theorem isOpen_of_opened {i : SpanItem} {link : Option LinkKey} (hform : i.form = .opened link) :
    i.isOpen = true := by
  rw [SpanItem.isOpen, hform]

theorem isOpen_of_closed {i : SpanItem} {u : Slice} {c : CloseCause} (hform : i.form = .closed u c) :
    i.isOpen = false := by
  rw [SpanItem.isOpen, hform]

theorem entryOfItem_opened {i : SpanItem} {link : Option LinkKey} (hform : i.form = .opened link)
    (k : StationId) : entryOfItem i k =
      { key := i.key, role := i.role, status := .opened, condition := i.condition, link := link
        concurrency := i.concurrency, continued := i.continued, announcedBy := k, time := i.time } := by
  simp only [entryOfItem, hform]

theorem entryOfItem_closed {i : SpanItem} {u : Slice} {c : CloseCause} (hform : i.form = .closed u c)
    (k : StationId) : entryOfItem i k =
      { key := i.key, role := i.role
        status := .closed (if before u i.key.openSlice then i.key.openSlice else u) c
        condition := i.condition, link := none, concurrency := i.concurrency, continued := i.continued
        announcedBy := k, time := i.time } := by
  simp only [entryOfItem, hform, endNoEarlier_eq]

/-- The spans changed and nothing raised: nothing joins. -/
theorem settleNotices_withSpans {s : State} (hraised : s.raised = []) (x : Spans) :
    (s.withSpans x).settleNotices = s.withSpans x := settleNotices_none _ hraised

/-- The spans changed and one notice raised. -/
theorem settleNotices_withSpans_raise {s : State} (hraised : s.raised = []) (x : Spans) (b : Raiser)
    (kind : NoticeKind) (subject : Nat) (detail : Half) :
    ((s.withSpans x).raise b kind subject detail).settleNotices = { s with
      spans := x
      notices := s.notices.join s.windowInFlight
        { kind := kind, slice := s.clock.index, subject := byte subject, detail := detail } } :=
  settleNotices_raise (s := s.withSpans x) hraised b kind subject detail

/-! ### OPEN items (R89, R91) -/

theorem insertOpen_of_free {s : State} {i : SpanItem} (k : StationId)
    (hfree : liveOfSeat s.spans.table (seatOf i.key) = none) :
    s.insertOpen k i = s.insertEntry (entryOfItem i k) := by
  rw [State.insertOpen, hfree]

theorem insertOpen_of_earlier {s : State} {i : SpanItem} {old : SpanEntry} (k : StationId)
    (hlive : liveOfSeat s.spans.table (seatOf i.key) = some old)
    (hbefore : before old.key.openSlice i.key.openSlice = true) : s.insertOpen k i =
      (s.withSpans { s.spans with
        table := updateEntry s.spans.table old.key fun e =>
          e.close (i.key.openSlice - 1) .superseded s.control.id }).insertEntry (entryOfItem i k) := by
  rw [State.insertOpen, hlive]
  exact if_pos hbefore

theorem insertOpen_of_later {s : State} {i : SpanItem} {old : SpanEntry} (k : StationId)
    (hlive : liveOfSeat s.spans.table (seatOf i.key) = some old)
    (hbefore : before old.key.openSlice i.key.openSlice = false) : s.insertOpen k i = s := by
  rw [State.insertOpen, hlive]
  exact if_neg (by rw [hbefore]; decide)

theorem exec_openItem {s : State} {k : StationId} {i : SpanItem} (hreset : s.resetN = true)
    (hother : k ≠ s.control.id) (hopen : i.isOpen = true) :
    exec (.openItem k i) s = .next (s.applyOpen k i).settleNotices := by
  change Host.Outcome.next _ = _
  rw [whenRunning_high hreset, State.openItem, if_pos ⟨hears_of_ne hother, hopen⟩]

theorem openItem_ignored {s : State} {k : StationId} {i : SpanItem} (hraised : s.raised = [])
    (h : s.applyOpen k i = s) : exec (.openItem k i) s = .next s := by
  refine next_whenRunning_self ?_
  rw [State.openItem, h, settleNotices_none s hraised, ite_self]

theorem applyOpen_of_unknown {s : State} {k : StationId} {i : SpanItem} (howner : i.key.owner = k)
    (hunknown : entryOf s.spans.table i.key = none) : s.applyOpen k i = s.insertOpen k i := by
  rw [State.applyOpen, if_pos howner, hunknown]

theorem applyOpen_ignored {s : State} {k : StationId} {i : SpanItem}
    (h : i.key.owner ≠ k ∨ entryOf s.spans.table i.key ≠ none ∨
      ∃ e, liveOfSeat s.spans.table (seatOf i.key) = some e ∧
        before e.key.openSlice i.key.openSlice = false) : s.applyOpen k i = s := by
  by_cases howner : i.key.owner = k
  · cases hentry : entryOf s.spans.table i.key with
    | some e => rw [State.applyOpen, if_pos howner, hentry]
    | none =>
      obtain ⟨e, hlive, hbefore⟩ := (h.resolve_left (not_not_intro howner)).resolve_left
        (not_not_intro hentry)
      rw [applyOpen_of_unknown howner hentry, insertOpen_of_later k hlive hbefore]
  · exact if_neg howner

/-- An insertion into a table with room, at the end of a command that raised nothing else. -/
theorem insertEntry_settled {s : State} (hraised : s.raised = []) (e : SpanEntry)
    (hroom : s.spans.table.length < 160) : (s.insertEntry e).settleNotices =
      { s with spans := { s.spans with table := s.spans.table ++ [e] } } := by
  rw [insertEntry_of_room hroom, settleNotices_withSpans hraised]
  rfl

section Opened

variable {s : State} {k : StationId} {i : SpanItem} {link : Option LinkKey} (hraised : s.raised = [])
  (hform : i.form = .opened link)

include hraised hform

/-- An OPEN item of a seat without a live entry. -/
theorem insertOpen_free_settled (hfree : liveOfSeat s.spans.table (seatOf i.key) = none)
    (hroom : s.spans.table.length < 160) : (s.insertOpen k i).settleNotices =
      { s with spans := { s.spans with table := s.spans.table ++
        [{ key := i.key, role := i.role, status := .opened, condition := i.condition, link := link
           concurrency := i.concurrency, continued := i.continued, announcedBy := k, time := i.time }] } } := by
  rw [insertOpen_of_free k hfree, insertEntry_settled hraised _ hroom, entryOfItem_opened hform]

/-- An OPEN item of a seat whose live entry opened earlier supersedes it. -/
theorem insertOpen_earlier_settled {old : SpanEntry}
    (hlive : liveOfSeat s.spans.table (seatOf i.key) = some old) (hroom : s.spans.table.length < 160)
    (hbefore : before old.key.openSlice i.key.openSlice = true) : (s.insertOpen k i).settleNotices =
      { s with spans := { s.spans with
        table := (s.spans.table.map (fun x =>
          if x.key = old.key then
            { x with
              status := .closed
                (if before (i.key.openSlice - 1) x.key.openSlice then x.key.openSlice
                  else i.key.openSlice - 1) .superseded
              announcedBy := s.control.id }
          else x)) ++
        [{ key := i.key, role := i.role, status := .opened, condition := i.condition, link := link
           concurrency := i.concurrency, continued := i.continued, announcedBy := k, time := i.time }] } } := by
  have hlength : (updateEntry s.spans.table old.key fun e =>
      e.close (i.key.openSlice - 1) .superseded s.control.id).length < 160 := by
    rw [updateEntry, List.length_map]
    exact hroom
  rw [insertOpen_of_earlier k hlive hbefore, insertEntry_settled (s := s.withSpans { s.spans with
    table := updateEntry s.spans.table old.key fun e =>
      e.close (i.key.openSlice - 1) .superseded s.control.id }) hraised _ hlength, entryOfItem_opened hform]
  rfl

end Opened

/-- Settles O19: the item inserted, after a close or an eviction, and the items ignored. -/
theorem openItemApplied : Obligations.OpenItemApplied := by
  refine ⟨fun k i link s hreset hother howner hform hraised hunknown => ?_, fun k i s hraised h =>
    openItem_ignored hraised (applyOpen_ignored h)⟩
  intro e
  have hexec : exec (.openItem k i) s = .next (s.insertOpen k i).settleNotices := by
    rw [exec_openItem hreset hother (isOpen_of_opened hform), applyOpen_of_unknown howner hunknown]
  rw [hexec]
  refine ⟨fun hfree hroom => ?_, fun old hlive hroom hbefore => ?_, fun hfree hfull v u c hv hclosed =>
    ⟨fun harchived hoth => ?_, fun hoth => ?_⟩⟩
  · rw [insertOpen_free_settled hraised hform hfree hroom]
  · rw [insertOpen_earlier_settled hraised hform hlive hroom hbefore]
  · have hend : v.endSlice? = some u := (endSlice_iff v u).mpr ⟨c, hclosed⟩
    have hold : oldestClosed (fun e t => !s.rings.unarchivedSlice e.key.owner t) s.spans.table = some v := by
      refine oldestClosed_eq hv hend (by rw [harchived]; rfl) fun x hx hne w hw hp => ?_
      obtain ⟨d, hd⟩ := (endSlice_iff x w).mp hw
      exact hoth x hx hne w d hd (by simpa using hp)
    rw [insertOpen_of_free k hfree, insertEntry_of_archived hfull hv hold, settleNotices_withSpans hraised,
      entryOfItem_opened hform]
    rfl
  · have hend : v.endSlice? = some u := (endSlice_iff v u).mpr ⟨c, hclosed⟩
    have hnone : oldestClosed (fun e t => !s.rings.unarchivedSlice e.key.owner t) s.spans.table = none := by
      refine oldestClosed_none fun x hx w hw => ?_
      obtain ⟨d, hd⟩ := (endSlice_iff x w).mp hw
      rw [(hoth x hx w d hd).1]
      rfl
    have hold : oldestClosed (fun _ _ => true) s.spans.table = some v := by
      refine oldestClosed_eq hv hend rfl fun x hx hne w hw _ => ?_
      obtain ⟨d, hd⟩ := (endSlice_iff x w).mp hw
      exact (hoth x hx w d hd).2 hne
    rw [insertOpen_of_free k hfree, insertEntry_of_unarchived hfull hv hnone hold,
      settleNotices_withSpans_raise hraised, entryOfItem_opened hform]

/-! ### SPAN_BEACON (R93) -/

theorem exec_spanBeacon {s : State} {k : StationId} (es : List SpanItem) (hreset : s.resetN = true)
    (hother : k ≠ s.control.id) : exec (.spanBeacon k es) s =
      .next (s.applyBeacon k (es.filter SpanItem.isOpen)).settleNotices := by
  change Host.Outcome.next _ = _
  rw [whenRunning_high hreset, State.spanBeacon, if_pos (hears_of_ne hother)]

/-- A beacon of one entry. -/
theorem exec_spanBeacon_one {s : State} {k : StationId} {i : SpanItem} (hreset : s.resetN = true)
    (hother : k ≠ s.control.id) (hopen : i.isOpen = true) :
    exec (.spanBeacon k [i]) s = .next (s.applyBeaconEntry k i).settleNotices := by
  rw [exec_spanBeacon _ hreset hother, List.filter_cons_of_pos hopen]
  rfl

theorem applyBeaconEntry_of_orphan {s : State} {k : StationId} {i : SpanItem} {e : SpanEntry} {n : Nat}
    {u : Slice} (howner : i.key.owner = k) (hentry : entryOf s.spans.table i.key = some e)
    (hstatus : e.status = .orphaned n u) : s.applyBeaconEntry k i = s.withSpans { s.spans with
      table := updateEntry s.spans.table i.key fun x => { x with status := .opened, announcedBy := k } } := by
  simp only [State.applyBeaconEntry, howner, hentry, hstatus, if_true]

theorem applyBeaconEntry_of_known {s : State} {k : StationId} {i : SpanItem} {e : SpanEntry}
    (hentry : entryOf s.spans.table i.key = some e) (hnot : ∀ n u, e.status ≠ .orphaned n u) :
    s.applyBeaconEntry k i = s := by
  unfold State.applyBeaconEntry
  rw [hentry]
  dsimp only
  cases hstatus : e.status with
  | orphaned n u => exact absurd hstatus (hnot n u)
  | opened => exact ite_self _
  | closed u c => exact ite_self _

theorem applyBeaconEntry_of_unknown {s : State} {k : StationId} {i : SpanItem} (howner : i.key.owner = k)
    (hunknown : entryOf s.spans.table i.key = none) : s.applyBeaconEntry k i = s.insertOpen k i := by
  rw [State.applyBeaconEntry, if_pos howner, hunknown]

/-- A beacon's entries behind the first are those of a beacon of their own. -/
theorem spanBeacon_cons {s : State} (hraised : s.raised = []) (k : StationId) (i : SpanItem)
    (rest : List SpanItem) : ∃ t, exec (.spanBeacon k [i]) s = .next t ∧
      exec (.spanBeacon k (i :: rest)) s = exec (.spanBeacon k rest) t := by
  by_cases hreset : s.resetN = true
  · by_cases hother : k ≠ s.control.id
    · have hone := exec_spanBeacon [i] hreset hother
      have hentry : (s.applyBeacon k ([i].filter SpanItem.isOpen)).settleNotices.resetN = true ∧
          k ≠ (s.applyBeacon k ([i].filter SpanItem.isOpen)).settleNotices.control.id := by
        obtain ⟨_, _, h⟩ := applyBeacon_frame s k ([i].filter SpanItem.isOpen)
        rw [settleNotices_resetN, settleNotices_control, h]
        exact ⟨hreset, hother⟩
      refine ⟨_, hone, ?_⟩
      have hsplit : (i :: rest).filter SpanItem.isOpen = [i].filter SpanItem.isOpen ++ rest.filter SpanItem.isOpen :=
        List.filter_append (p := SpanItem.isOpen) [i] rest
      have hwork := applyBeacon_work k ([i].filter SpanItem.isOpen) s
      obtain ⟨x, added, hadded, hfirst⟩ := hwork
      have hmine : ∀ r ∈ (s.applyBeacon k ([i].filter SpanItem.isOpen)).raised, r.raiser = .spans := by
        have hwhole : s.applyBeacon k ([i].filter SpanItem.isOpen) =
            { s with spans := x, raised := s.raised ++ added } := hfirst s.notices s.raised
        rw [hwhole, hraised]
        exact hadded
      have hjoined : s.applyBeacon k ([i].filter SpanItem.isOpen ++ rest.filter SpanItem.isOpen) =
          (s.applyBeacon k ([i].filter SpanItem.isOpen)).applyBeacon k (rest.filter SpanItem.isOpen) :=
        List.foldl_append
      rw [exec_spanBeacon _ hreset hother, exec_spanBeacon _ hentry.1 hentry.2, hsplit, hjoined,
        (applyBeacon_work k (rest.filter SpanItem.isOpen) _).settle hmine]
    · have hdeaf (es : List SpanItem) : exec (.spanBeacon k es) s = .next s := by
        refine next_whenRunning_self (if_neg ?_)
        rw [State.hears, decide_eq_true_iff]
        exact hother
      exact ⟨s, hdeaf [i], (hdeaf _).trans (hdeaf rest).symm⟩
  · have hlow (es : List SpanItem) : exec (.spanBeacon k es) s = .next s :=
      congrArg Host.Outcome.next (whenRunning_low (Bool.eq_false_iff.mpr hreset) _)
    exact ⟨s, hlow [i], (hlow _).trans (hlow rest).symm⟩

/-- Settles O21: an entry of a known key, of an unknown one, and a beacon of several. -/
theorem beaconReclaimsOrphan : Obligations.BeaconReclaimsOrphan := by
  refine ⟨fun k i e s hreset hother hopen howner hraised hentry => ?_,
    fun k i link s hreset hother hform howner hraised hunknown => ?_,
    fun k i rest s hraised => spanBeacon_cons hraised k i rest, fun k s hraised => ?_⟩
  · rw [exec_spanBeacon_one hreset hother hopen]
    refine ⟨?_, fun hnot => ?_⟩
    · rintro ⟨n, u, hstatus⟩
      rw [applyBeaconEntry_of_orphan howner hentry hstatus, settleNotices_withSpans hraised]
      rfl
    · rw [applyBeaconEntry_of_known hentry hnot, settleNotices_none s hraised]
  · intro e
    have hopen := isOpen_of_opened hform
    rw [exec_openItem hreset hother hopen, applyOpen_of_unknown howner hunknown,
      exec_spanBeacon_one hreset hother hopen, applyBeaconEntry_of_unknown howner hunknown]
    refine ⟨rfl, fun hfree hroom => ?_, fun old hlive hroom hbefore => ?_⟩
    · rw [insertOpen_free_settled hraised hform hfree hroom]
    · rw [insertOpen_earlier_settled hraised hform hlive hroom hbefore]
  · refine next_whenRunning_self ?_
    rw [State.spanBeacon, List.filter_nil]
    change (if s.hears k = true then s.settleNotices else s) = s
    rw [settleNotices_none s hraised, ite_self]

end Sys2Proof.Machine
end


section
/-! SUPPORT. CLOSE items received (R85, R92, R94), and what a custody close of an own span opens. -/

namespace Sys2Proof.Machine

theorem exec_closeItem {s : State} {k : StationId} {i : SpanItem} {u : Slice} {c : CloseCause}
    (hreset : s.resetN = true) (hother : k ≠ s.control.id) (hform : i.form = .closed u c) :
    exec (.closeItem k i) s = .next (s.applyClose k i).settleNotices := by
  change Host.Outcome.next _ = _
  rw [whenRunning_high hreset, State.closeItem, if_pos ⟨hears_of_ne hother, isOpen_of_closed hform⟩]

/-- The table in which the entry of an item's key is closed (R92). -/
def State.closedBy (s : State) (k : StationId) (key : SpanKey) (u : Slice) (c : CloseCause) : State :=
  s.withSpans { s.spans with table := updateEntry s.spans.table key fun x => x.close u c k }

section Close

variable {s : State} {k : StationId} {i : SpanItem} {u : Slice} {c : CloseCause} {e : SpanEntry}
  (hform : i.form = .closed u c)

include hform

theorem applyClose_of_unknown (hunknown : entryOf s.spans.table i.key = none) :
    s.applyClose k i = s.insertEntry (entryOfItem i k) := by
  rw [State.applyClose, hform]
  dsimp only
  rw [hunknown]

theorem applyClose_of_closed (hentry : entryOf s.spans.table i.key = some e) (hlive : e.live = false) :
    s.applyClose k i = s := by
  rw [State.applyClose, hform]
  dsimp only
  rw [hentry]
  exact if_neg (by rw [hlive]; decide)

theorem applyClose_of_live (hentry : entryOf s.spans.table i.key = some e) (hlive : e.live = true) :
    s.applyClose k i = if i.key.owner = s.control.id then (s.closedBy k i.key u c).reopenAfterCustody e u
      else s.closedBy k i.key u c := by
  rw [State.applyClose, hform]
  dsimp only
  rw [hentry]
  exact if_pos hlive

end Close

/-! ### The detector of an own span (R94) -/

theorem reopenAfterCustody_of_hang {s : State} {e : SpanEntry} {n : Nat} {last : Slice} (u : Slice)
    (hdetector : look s.spans.detectors e.key.lane = .hang n last e.key) :
    s.reopenAfterCustody e u = s.setDetector e.key.lane .quiet := by
  simp only [State.reopenAfterCustody, hdetector, if_true]

theorem reopenAfterCustody_of_active {s : State} {e : SpanEntry} {last : Slice} (u : Slice)
    (hdetector : look s.spans.detectors e.key.lane = .active last e.key) :
    s.reopenAfterCustody e u = s.tryOpen e.key.lane (endNoEarlier e.key.openSlice u + 1) e.condition true
      (later last (endNoEarlier e.key.openSlice u + 1)) := by
  simp only [State.reopenAfterCustody, hdetector, if_true]

/-- An own open that R84 lets proceed, into a table with room. -/
theorem tryOpen_of_room {s : State} {l : Lane} {t last : Slice} (c : Condition) (b : Bool)
    (hnew : entryOf s.spans.table (s.ownKey l t) = none) (hroom : s.spans.table.length < 160) :
    s.tryOpen l t c b last = (State.announce (s.withSpans { s.spans with
      table := s.spans.table ++ [s.newEntry l t c b] }) (s.newEntry l t c b).item).setDetector l
        (.active last (s.ownKey l t)) := by
  have hproceeds : ¬ s.openRefused l t = true := by
    rw [State.openRefused, hnew]
    decide
  rw [State.tryOpen, if_neg hproceeds, State.openSpan, insertEntry_of_room hroom]

/-- An announcement and a detector's new state, at the end of a command that raised nothing else. -/
theorem announce_settled {s : State} (hraised : s.raised = []) (i : SpanItem) (l : Lane) (d : Detector) :
    ∃ o n q, ((s.announce i).setDetector l d).settleNotices = { s with
        spans := { s.spans with detectors := put s.spans.detectors l d, outbox := o, outboxDrops := n }
        notices := q } ∧
      (s.spans.outbox.length < 64 → o = s.spans.outbox ++ [i] ∧ n = s.spans.outboxDrops ∧ q = s.notices) ∧
      (∀ x rest, s.spans.outbox = x :: rest → 64 ≤ s.spans.outbox.length →
        o = rest ++ [i] ∧ n = s.spans.outboxDrops + 1 ∧
        q = s.notices.join s.windowInFlight
          { kind := .outboxOverflow, slice := s.clock.index, subject := byte (seatOf x.key)
            detail := sliceDetail x.key.openSlice }) := by
  by_cases hroom : s.spans.outbox.length < 64
  · refine ⟨_, _, _, ?_, fun _ => ⟨rfl, rfl, rfl⟩, fun x rest _ hfull => absurd hroom (Nat.not_lt.mpr hfull)⟩
    rw [announce_of_room i hroom]
    exact settleNotices_withSpans hraised _
  · cases houtbox : s.spans.outbox with
    | nil => exact absurd (by rw [houtbox]; decide) hroom
    | cons x rest =>
      refine ⟨rest ++ [i], s.spans.outboxDrops + 1, s.notices.join s.windowInFlight
        { kind := .outboxOverflow, slice := s.clock.index, subject := byte (seatOf x.key)
          detail := sliceDetail x.key.openSlice }, ?_, fun h => absurd (by rw [houtbox]; exact h) hroom,
        fun y more hsplit _ => ?_⟩
      · rw [announce_of_full i houtbox (Nat.le_of_not_lt hroom)]
        exact settleNotices_withSpans_raise hraised
          { s.spans with
            detectors := put s.spans.detectors l d, outbox := rest ++ [i]
            outboxDrops := s.spans.outboxDrops + 1 } _ _ _ _
      · obtain ⟨rfl, rfl⟩ := List.cons.inj hsplit
        exact ⟨rfl, rfl, rfl⟩

section OwnSpan

variable {s : State} {k : StationId} {i : SpanItem} {u : Slice} {c : CloseCause} {e : SpanEntry}

theorem closedBy_table_length (s : State) (k : StationId) (key : SpanKey) (u : Slice) (c : CloseCause) :
    (s.closedBy k key u c).spans.table.length = s.spans.table.length := List.length_map _

theorem entryOf_closedBy {key j : SpanKey} (hnew : entryOf s.spans.table key = none) :
    entryOf (s.closedBy k j u c).spans.table key = none :=
  entryOf_updateEntry_none (fun _ => rfl) hnew

end OwnSpan

/-- Settles O20: the entry closed, left or inserted, and the detector of an own span. -/
theorem closeItemApplied : Obligations.CloseItemApplied := by
  intro k i u c s hreset hother hform hraised v closed
  have hclosed : updateEntry s.spans.table i.key (fun x => x.close u c k) = closed :=
    updateEntry_close s.spans.table i.key u c k
  have hstate : s.closedBy k i.key u c = s.withSpans { s.spans with table := closed } := by
    rw [State.closedBy, hclosed]
  rw [exec_closeItem hreset hother hform]
  refine ⟨fun e howner hentry hlive => ?_, fun e hentry hlive => ?_, fun hunknown hroom => ?_,
    fun e n last howner hentry hlive hdetector => ?_, ?_⟩
  · rw [applyClose_of_live hform hentry hlive, if_neg howner, hstate, settleNotices_withSpans hraised]
    rfl
  · rw [applyClose_of_closed hform hentry hlive, settleNotices_none s hraised]
  · rw [applyClose_of_unknown hform hunknown, insertEntry_settled hraised _ hroom, entryOfItem_closed hform]
  · have hkey := entryOf_key hentry
    rw [← hkey] at hdetector
    rw [applyClose_of_live hform hentry hlive, if_pos howner, reopenAfterCustody_of_hang
      (s := s.closedBy k i.key u c) u hdetector, hstate, hkey]
    exact congrArg Host.Outcome.next (settleNotices_withSpans hraised _)
  · intro e last howner hentry hlive hdetector hroom key hnew
    have hkey := entryOf_key hentry
    rw [← hkey] at hdetector
    have hopens := tryOpen_of_room (s := s.closedBy k i.key u c) (l := i.key.lane) (t := v + 1)
      (last := later last (v + 1)) e.condition true (entryOf_closedBy hnew)
      (by rw [closedBy_table_length]; exact hroom)
    have happlied : s.applyClose k i = (s.closedBy k i.key u c).tryOpen i.key.lane (v + 1) e.condition true
        (later last (v + 1)) := by
      rw [applyClose_of_live hform hentry hlive, if_pos howner, reopenAfterCustody_of_active
        (s := s.closedBy k i.key u c) u hdetector, hkey]
      rfl
    rw [happlied, hopens, hstate]
    obtain ⟨o, n, q, hsettled, hplace, hoverflow⟩ := announce_settled
      (s := (s.withSpans { s.spans with table := closed }).withSpans { s.spans with
        table := closed ++ [(s.withSpans { s.spans with table := closed }).newEntry i.key.lane (v + 1)
          e.condition true] }) hraised
      ((s.withSpans { s.spans with table := closed }).newEntry i.key.lane (v + 1) e.condition true).item
      i.key.lane (.active (later last (v + 1)) key)
    refine ⟨_, (s.withSpans { s.spans with table := closed }).newEntry i.key.lane (v + 1) e.condition true,
      congrArg Host.Outcome.next hsettled, rfl, rfl, rfl, rfl, rfl, rfl, rfl, rfl, rfl, hplace, hoverflow, ?_, rfl⟩
    dsimp only
    rw [look_put, if_pos rfl]

end Sys2Proof.Machine
end


section
/-! SUPPORT. The loss of peers and the spans (R65, R95, R97, R98): the reports one after another, and what they
make of the table, the custody records and the recall queue. -/

namespace Sys2Proof.Machine

/-! ### One lost peer -/

/-- The lost peers among those of a list, one after another (R65). -/
def State.loseAll (s : State) (ids : List StationId) : State :=
  ids.foldl (fun s k => if s.isLost k then s.losePeer k else s) s

theorem losePeers_eq (s : State) : s.losePeers = s.loseAll allIds := rfl

theorem loseAll_cons (s : State) (k : StationId) (ids : List StationId) :
    s.loseAll (k :: ids) = (if s.isLost k then s.losePeer k else s).loseAll ids := rfl

theorem loseAll_onlyPeers (s : State) (ids : List StationId) : OnlyPeers s (s.loseAll ids) := by
  refine foldl_frame OnlyPeers.refl OnlyPeers.trans _ (fun u k => ?_) _ _
  split
  · exact losePeer_onlyPeers u k
  · exact .refl u

theorem loseAll_tells (s : State) (ids : List StationId) : Tells s (s.loseAll ids) := by
  refine foldl_tells (fun u k => ?_) _ _
  split
  · exact losePeer_tells u k
  · exact .refl u

/-- Of another peer a loss changes nothing that the reports read. -/
theorem losePeer_other {j k : StationId} (hne : j ≠ k) (s : State) :
    look (s.losePeer k).roster.entries j = look s.roster.entries j ∧
    (s.losePeer k).isLost j = s.isLost j := by
  obtain ⟨hroster, hcontrol⟩ := losePeer_roster s k
  have hlook : look (s.losePeer k).roster.entries j = look s.roster.entries j := by
    rw [hroster, look_put, if_neg hne]
  exact ⟨hlook, by rw [State.isLost, State.isLost, hlook, hcontrol]⟩

/-- What the reports read after some peers were lost (R95, R97). -/
theorem loseAll_kept (s : State) {ids : List StationId} (hnodup : ids.Nodup) :
    (s.loseAll ids).control = s.control ∧ (s.loseAll ids).roster.mirror = s.roster.mirror ∧
    (s.loseAll ids).rings = s.rings ∧ (s.loseAll ids).clock = s.clock ∧
    ∀ j, j ∉ ids → look (s.loseAll ids).roster.entries j = look s.roster.entries j ∧
      (s.loseAll ids).isLost j = s.isLost j := by
  obtain ⟨hcontrol, -, hmirror, hentries⟩ := foldl_losePeer_roster ids hnodup s (s.loseAll ids) rfl
  obtain ⟨_, _, _, _, hframe⟩ := loseAll_onlyPeers s ids
  refine ⟨hcontrol, hmirror, by rw [hframe], by rw [hframe], fun j hj => ?_⟩
  have hlook : look (s.loseAll ids).roster.entries j = look s.roster.entries j := by
    rw [hentries j, if_neg fun h => hj h.1]
  exact ⟨hlook, by rw [State.isLost, State.isLost, hlook, hcontrol]⟩

/-! ### The recall queue (R153) -/

theorem purge_queue (r : Recall) (k : StationId) :
    (r.purge k).queue = r.queue.filter fun q => decide (q.id.requester ≠ k) := by
  unfold Recall.purge
  dsimp only
  split <;> rfl

theorem losePeer_queue (s : State) (k : StationId) :
    (s.losePeer k).server.queue = s.server.queue.filter fun q => decide (q.id.requester ≠ k) := by
  have purged {u v : State} (h : OnlySpans u v) (hu : u.server = s.server) :
      (v.purgeRecall k).server.queue = s.server.queue.filter fun q => decide (q.id.requester ≠ k) := by
    obtain ⟨_, _, rfl⟩ := h
    rw [← hu]
    exact (pump_queue _).trans (purge_queue _ k)
  unfold State.losePeer
  dsimp only
  split
  · exact purged (custodyReport_frame _ _ _ _) rfl
  · exact purged (lossReport_frame _ _ _) rfl

theorem loseAll_queue (s : State) (ids : List StationId) : ∀ q ∈ (s.loseAll ids).server.queue,
    q ∈ s.server.queue := by
  induction ids generalizing s with
  | nil => exact fun q hq => hq
  | cons k ids ih =>
    intro q hq
    rw [loseAll_cons] at hq
    have hstep := ih _ q hq
    split at hstep
    · rw [losePeer_queue] at hstep
      exact (List.mem_filter.mp hstep).1
    · exact hstep

/-! ### The loss report (R95) -/

theorem orphan_key (k : StationId) (t : Option Slice) (e : SpanEntry) : (orphan k t e).key = e.key := by
  unfold orphan
  split <;> rfl

theorem orphan_other {k : StationId} {e : SpanEntry} (h : e.key.owner ≠ k) (t : Option Slice) :
    orphan k t e = e := if_neg fun hk => h hk.1

/-- What the loss reports for the peers of a list make of an entry. -/
def State.lossOf (s : State) (ids : List StationId) (e : SpanEntry) : SpanEntry :=
  if e.key.owner ∈ ids ∧ s.isLost e.key.owner = true then
    orphan e.key.owner (look s.roster.entries e.key.owner).lastBlock e
  else e

theorem lossOf_key (s : State) (ids : List StationId) (e : SpanEntry) : (s.lossOf ids e).key = e.key := by
  unfold State.lossOf
  split
  · exact orphan_key _ _ e
  · rfl

theorem lossOf_other (s : State) {ids : List StationId} {e : SpanEntry} (h : e.key.owner ∉ ids) :
    s.lossOf ids e = e := if_neg fun hk => h hk.1

theorem losePeer_loss {s : State} {k : StationId} (hmirror : s.roster.mirror ≠ some k) :
    (s.losePeer k).spans = { s.spans with
      table := s.spans.table.map (orphan k (look s.roster.entries k).lastBlock) } := by
  unfold State.losePeer
  dsimp only
  rw [if_neg hmirror]
  rfl

theorem lossOf_cons {s : State} {k : StationId} {ids : List StationId} (hk : k ∉ ids)
    (hlost : s.isLost k = true) (e : SpanEntry) :
    (s.losePeer k).lossOf ids (orphan k (look s.roster.entries k).lastBlock e) = s.lossOf (k :: ids) e := by
  by_cases howner : e.key.owner = k
  · have hout : (orphan k (look s.roster.entries k).lastBlock e).key.owner ∉ ids := by
      rw [orphan_key, howner]
      exact hk
    rw [lossOf_other _ hout, State.lossOf, howner, if_pos ⟨List.mem_cons_self, hlost⟩]
  · obtain ⟨hlook, hsame⟩ := losePeer_other howner s
    rw [orphan_other howner, State.lossOf, State.lossOf, hlook, hsame]
    simp only [List.mem_cons, howner, false_or]

/-- The reports of lost peers none of which is the mirror source. -/
theorem loseAll_losses {ids : List StationId} (hnodup : ids.Nodup) {s : State}
    (hmirror : ∀ j ∈ ids, s.isLost j = true → s.roster.mirror ≠ some j) :
    (s.loseAll ids).spans = { s.spans with table := s.spans.table.map (s.lossOf ids) } := by
  induction ids generalizing s with
  | nil =>
    have hid : s.spans.table.map (s.lossOf []) = s.spans.table :=
      (List.map_congr_left fun e _ => lossOf_other s List.not_mem_nil).trans (List.map_id _)
    rw [hid]
    rfl
  | cons k ids ih =>
    obtain ⟨hk, hids⟩ := List.nodup_cons.mp hnodup
    rw [loseAll_cons]
    by_cases hlost : s.isLost k = true
    · have hrest : ∀ j ∈ ids, (s.losePeer k).isLost j = true → (s.losePeer k).roster.mirror ≠ some j := by
        intro j hj hj'
        obtain ⟨-, hsame⟩ := losePeer_other (fun h => hk (h ▸ hj) : j ≠ k) s
        rw [(losePeer_roster s k).1]
        exact hmirror j (List.mem_cons_of_mem _ hj) (hsame ▸ hj')
      rw [if_pos hlost, ih hids hrest, losePeer_loss (hmirror k List.mem_cons_self hlost), List.map_map]
      refine congrArg (fun t => { s.spans with table := t }) (List.map_congr_left fun e _ => ?_)
      exact lossOf_cons hk hlost e
    · rw [if_neg hlost, ih hids fun j hj => hmirror j (List.mem_cons_of_mem _ hj)]
      refine congrArg (fun t => { s.spans with table := t }) (List.map_congr_left fun e _ => ?_)
      by_cases howner : e.key.owner = k
      · rw [lossOf_other s (howner ▸ hk), State.lossOf, howner, if_neg fun h => hlost h.2]
      · simp only [State.lossOf, List.mem_cons, howner, false_or]

/-! ### The custody report (R97, R98) -/

theorem announce_table (s : State) (i : SpanItem) : (s.announce i).spans.table = s.spans.table ∧
    (s.announce i).spans.custody = s.spans.custody := by
  unfold State.announce
  split
  · exact ⟨rfl, rfl⟩
  · split <;> exact ⟨rfl, rfl⟩

theorem mem_liveOfPeer {table : List SpanEntry} {k : StationId} {e : SpanEntry} :
    e ∈ liveOfPeer table k ↔ e ∈ table ∧ e.live = true ∧ e.key.owner = k := by
  simp only [liveOfPeer, List.mem_flatMap, List.mem_filter, Bool.and_eq_true, decide_eq_true_eq]
  constructor
  · rintro ⟨l, -, hmem, hlive, howner, -⟩
    exact ⟨hmem, hlive, howner⟩
  · rintro ⟨hmem, hlive, howner⟩
    exact ⟨e.key.lane, mem_allLanes _, hmem, hlive, howner, rfl⟩

/-- Each live entry of the peer is in the list of its lane, once. -/
theorem liveOfPeer_length (table : List SpanEntry) (k : StationId) :
    (liveOfPeer table k).length = table.countP fun x => x.live && decide (x.key.owner = k) := by
  have hone : ∀ l : Lane, (allLanes.map fun j => if l = j then 1 else 0).sum = 1 := by decide
  rw [liveOfPeer, List.length_flatMap]
  induction table with
  | nil => rfl
  | cons e table ih =>
    have hstep (l : Lane) : ((e :: table).filter fun e => e.live && decide (e.key.owner = k ∧ e.key.lane = l)).length =
        (table.filter fun e => e.live && decide (e.key.owner = k ∧ e.key.lane = l)).length +
          (if (e.live && decide (e.key.owner = k)) = true then (if e.key.lane = l then 1 else 0) else 0) := by
      by_cases hlive : (e.live && decide (e.key.owner = k)) = true
      · obtain ⟨hl, ho⟩ := Bool.and_eq_true_iff.mp hlive
        have ho' := of_decide_eq_true ho
        by_cases hlane : e.key.lane = l <;> simp [hl, ho', hlane]
      · have hout : ¬ (e.live && decide (e.key.owner = k ∧ e.key.lane = l)) = true := by
          intro h
          simp only [Bool.and_eq_true, decide_eq_true_eq] at h hlive
          exact hlive ⟨h.1, h.2.1⟩
        rw [if_neg hlive, List.filter_cons, if_neg hout, Nat.add_zero]
    simp only [hstep, List.sum_map_add]
    rw [ih, List.countP_cons]
    by_cases hlive : (e.live && decide (e.key.owner = k)) = true
    · simp only [hlive, if_true, hone]
    · rw [if_neg hlive]
      simp [hlive]

/-- The live entries of a peer under a change that leaves its entries alone. -/
theorem liveOfPeer_map {table : List SpanEntry} {k : StationId} {g : SpanEntry → SpanEntry}
    (hkey : ∀ e, (g e).key = e.key) (hsame : ∀ e : SpanEntry, e.key.owner = k → g e = e) :
    liveOfPeer (table.map g) k = liveOfPeer table k := by
  refine List.flatMap_congr fun l _ => ?_
  have hp (e : SpanEntry) : ((g e).live && decide ((g e).key.owner = k ∧ (g e).key.lane = l)) =
      (e.live && decide (e.key.owner = k ∧ e.key.lane = l)) := by
    by_cases howner : e.key.owner = k
    · rw [hsame e howner]
    · simp [hkey, howner]
  rw [List.filter_map, List.map_congr_left (g := id), List.map_id]
  · exact List.filter_congr fun e _ => hp e
  · intro e he
    obtain ⟨-, h⟩ := List.mem_filter.mp he
    rw [Function.comp_apply, hp, Bool.and_eq_true, decide_eq_true_iff] at h
    exact hsame e h.2.1

/-- The end that a custody report gives an entry (R97). -/
def State.reportEnd (s : State) (k : StationId) (lastBlock : Option Slice) (e : SpanEntry) : Slice :=
  match openRunOf s.rings.runs k with
  | some r => r.last
  | none => lastBlock.getD e.key.openSlice

/-- The end of a custody close of an entry at its owner's loss. -/
def State.custodyEnd (s : State) (e : SpanEntry) : Slice :=
  s.reportEnd e.key.owner (look s.roster.entries e.key.owner).lastBlock e

/-- The entry closed into custody. -/
def State.custodyEntry (s : State) (e : SpanEntry) : SpanEntry :=
  e.close (s.custodyEnd e) .stationLost s.control.id

/-- A row of entries closed one after another. -/
def closeEach (f : SpanEntry → SpanEntry) (l table : List SpanEntry) : List SpanEntry :=
  l.foldl (fun t e => updateEntry t e.key fun _ => f e) table

theorem foldl_custodyClose (l : List SpanEntry) (endOf : SpanEntry → Slice) (s : State) :
    (l.foldl (fun s e => s.custodyClose e (endOf e)) s).spans.table =
      closeEach (fun e => e.close (endOf e) .stationLost s.control.id) l s.spans.table ∧
    (l.foldl (fun s e => s.custodyClose e (endOf e)) s).spans.custody = s.spans.custody := by
  induction l generalizing s with
  | nil => exact ⟨rfl, rfl⟩
  | cons e l ih =>
    obtain ⟨htable, hcustody⟩ := announce_table (s.withSpans { s.spans with
      table := updateEntry s.spans.table e.key fun _ => e.close (endOf e) .stationLost s.control.id })
      (e.close (endOf e) .stationLost s.control.id).item
    obtain ⟨hrest, hrest'⟩ := ih (s.custodyClose e (endOf e))
    have hcontrol : (s.custodyClose e (endOf e)).control = s.control := by
      obtain ⟨_, _, h⟩ := custodyClose_frame s e (endOf e)
      rw [h]
    rw [List.foldl_cons]
    refine ⟨hrest.trans ?_, hrest'.trans hcustody⟩
    have htable' : (s.custodyClose e (endOf e)).spans.table =
      updateEntry s.spans.table e.key fun _ => e.close (endOf e) .stationLost s.control.id := htable
    rw [htable', hcontrol]
    rfl

theorem updateEntry_getElem {table : List SpanEntry} {i : Nat} {x : SpanEntry} (hx : table[i]? = some x)
    (k : SpanKey) (f : SpanEntry → SpanEntry) :
    (updateEntry table k f)[i]? = some (if x.key = k then f x else x) := by
  rw [updateEntry, List.getElem?_map, hx]
  rfl

theorem closeEach_length (f : SpanEntry → SpanEntry) (l table : List SpanEntry) :
    (closeEach f l table).length = table.length := by
  induction l generalizing table with
  | nil => rfl
  | cons e l ih => exact (ih _).trans (List.length_map _)

/-- An entry whose key is not in the row stays. -/
theorem closeEach_miss {f : SpanEntry → SpanEntry} {l table : List SpanEntry} {i : Nat} {x : SpanEntry}
    (hx : table[i]? = some x) (hmiss : ∀ e ∈ l, e.key ≠ x.key) : (closeEach f l table)[i]? = some x := by
  induction l generalizing table with
  | nil => exact hx
  | cons e l ih =>
    refine ih ?_ fun y hy => hmiss y (List.mem_cons_of_mem _ hy)
    rw [updateEntry_getElem hx, if_neg (hmiss e List.mem_cons_self).symm]

/-- An entry that is the only one of its key in the row is closed. -/
theorem closeEach_hit {f : SpanEntry → SpanEntry} (hkey : ∀ e, (f e).key = e.key) {l table : List SpanEntry}
    {i : Nat} {x y : SpanEntry} (hy : table[i]? = some y) (hyx : y.key = x.key) (hmem : x ∈ l)
    (honly : ∀ e ∈ l, e.key = x.key → e = x) : (closeEach f l table)[i]? = some (f x) := by
  induction l generalizing table y with
  | nil => exact nomatch hmem
  | cons e l ih =>
    have hrest : ∀ e ∈ l, e.key = x.key → e = x := fun e he => honly e (List.mem_cons_of_mem _ he)
    have hstep : (updateEntry table e.key fun _ => f e)[i]? = some (if y.key = e.key then f e else y) :=
      updateEntry_getElem hy _ _
    by_cases he : e.key = x.key
    · obtain rfl := honly e List.mem_cons_self he
      rw [if_pos hyx] at hstep
      by_cases hl : e ∈ l
      · exact ih hstep (hkey e) hl hrest
      · exact closeEach_miss (l := l) hstep fun z hz h => hl (hrest z hz (h.trans (hkey e)) ▸ hz)
    · rw [if_neg fun h => he (h.symm.trans hyx)] at hstep
      exact ih hstep hyx ((List.mem_cons.mp hmem).resolve_left fun h => he (h ▸ rfl)) hrest

theorem closeEach_congr {f g : SpanEntry → SpanEntry} {l : List SpanEntry} (table : List SpanEntry)
    (h : ∀ e ∈ l, f e = g e) : closeEach f l table = closeEach g l table := by
  induction l generalizing table with
  | nil => rfl
  | cons e l ih =>
    rw [closeEach, List.foldl_cons, h e List.mem_cons_self]
    exact ih _ fun x hx => h x (List.mem_cons_of_mem _ hx)

/-- The custody report as one update of the spans. -/
theorem custodyReport_spans (s : State) (k : StationId) (join lastBlock : Option Slice)
    (endOf : SpanEntry → Slice)
    (hend : ∀ e ∈ liveOfPeer s.spans.table k, s.reportEnd k lastBlock e = endOf e) :
    (s.custodyReport k join lastBlock).spans.table =
      closeEach (fun e => e.close (endOf e) .stationLost s.control.id) (liveOfPeer s.spans.table k)
        s.spans.table ∧
    (s.custodyReport k join lastBlock).spans.custody = addCustody s.spans.custody
      { peer := k, join := join
        items := (liveOfPeer s.spans.table k).map fun e =>
          (e.close (endOf e) .stationLost s.control.id).item } := by
  obtain ⟨htable, hcustody⟩ := foldl_custodyClose (liveOfPeer s.spans.table k) (s.reportEnd k lastBlock) s
  constructor
  · exact htable.trans (closeEach_congr _ fun e he => by rw [hend e he])
  · have hitems : (liveOfPeer s.spans.table k).map (fun e =>
        (e.close (s.reportEnd k lastBlock e) .stationLost s.control.id).item) =
        (liveOfPeer s.spans.table k).map fun e => (e.close (endOf e) .stationLost s.control.id).item :=
      List.map_congr_left fun e he => by rw [hend e he]
    exact congrArg₂ addCustody hcustody (congrArg (CustodyRecord.mk k join) hitems)

/-- CUSTODY_TAKEN carries the slice in progress. -/
theorem custodyReport_raised (s : State) (k : StationId) (join lastBlock : Option Slice) :
    { raiser := .spans, notice := { kind := .custodyTaken, slice := s.clock.index, subject := byte k.val
                                    detail := BitVec.ofNat 16 (liveOfPeer s.spans.table k).length } } ∈
      (s.custodyReport k join lastBlock).raised := by
  have hclosed : OnlySpans s ((liveOfPeer s.spans.table k).foldl
      (fun s' e => s'.custodyClose e (s.reportEnd k lastBlock e)) s) :=
    foldl_frame OnlySpans.refl OnlySpans.trans _ (fun s' e => custodyClose_frame s' e _) _ s
  obtain ⟨_, r, h⟩ := hclosed
  have hindex := congrArg (fun u : State => u.clock.index) h
  refine List.mem_append_right _ (List.mem_singleton.mpr ?_)
  exact congrArg (fun t => ({ raiser := .spans, notice := {
    kind := .custodyTaken, slice := t, subject := byte k.val
    detail := BitVec.ofNat 16 (liveOfPeer s.spans.table k).length } } : Raised)) hindex.symm

section Custody

variable {s : State} {k : StationId} (hmirror : s.roster.mirror = some k)

include hmirror

/-- The spans after the mirror source's loss, and the notice. -/
theorem losePeer_custody :
    (s.losePeer k).spans.table = closeEach s.custodyEntry (liveOfPeer s.spans.table k) s.spans.table ∧
    (s.losePeer k).spans.custody = addCustody s.spans.custody
      { peer := k, join := (look s.roster.entries k).join
        items := (liveOfPeer s.spans.table k).map fun e => (s.custodyEntry e).item } ∧
    { raiser := .spans, notice := { kind := .custodyTaken, slice := s.clock.index, subject := byte k.val
                                    detail := BitVec.ofNat 16 (liveOfPeer s.spans.table k).length } } ∈
      (s.losePeer k).raised := by
  have hlose : s.losePeer k = (((s.setEntry k { look s.roster.entries k with state := .lost }).raise .roster
      .peerLost k.val (sliceDetail ((look s.roster.entries k).lastHeard.getD 0))).custodyReport k
        (look s.roster.entries k).join (look s.roster.entries k).lastBlock).purgeRecall k := by
    unfold State.losePeer
    dsimp only
    rw [if_pos hmirror]
  obtain ⟨htable, hcustody⟩ := custodyReport_spans ((s.setEntry k { look s.roster.entries k with
    state := .lost }).raise .roster .peerLost k.val (sliceDetail ((look s.roster.entries k).lastHeard.getD 0)))
    k (look s.roster.entries k).join (look s.roster.entries k).lastBlock s.custodyEnd fun e he => by
      obtain ⟨-, -, howner⟩ := mem_liveOfPeer.mp he
      rw [State.custodyEnd, howner]
      rfl
  rw [hlose]
  exact ⟨htable, hcustody, custodyReport_raised _ k _ _⟩

end Custody

end Sys2Proof.Machine
end


section
/-! SUPPORT. PEER_LOST: the table, the custody record, the selections and the clock after the losses (R64 to
R66, R68, R6, R95, R97, R98). -/

namespace Sys2Proof.Machine

/-! ### One lost peer among all -/

/-- The losses before a lost peer's, its own, and those behind it. -/
theorem losePeers_split {s : State} {k : StationId} (hlost : s.isLost k = true) : ∃ a b : List StationId,
    a.Nodup ∧ b.Nodup ∧ k ∉ a ∧ k ∉ b ∧ (∀ j, j ≠ k → j ∉ a → j ∈ b) ∧ (∀ j ∈ a, j ∉ b) ∧
    s.losePeers = ((s.loseAll a).losePeer k).loseAll b := by
  have hnodup : allIds.Nodup := by simp [allIds]
  obtain ⟨a, b, hsplit⟩ := List.append_of_mem (mem_allIds k)
  rw [hsplit, List.nodup_append, List.nodup_cons] at hnodup
  obtain ⟨ha, ⟨hkb, hb⟩, hdisjoint⟩ := hnodup
  have hka : k ∉ a := fun h => hdisjoint k h k List.mem_cons_self rfl
  refine ⟨a, b, ha, hb, hka, hkb, fun j hne hja => ?_, fun j hja hjb =>
    hdisjoint j hja j (List.mem_cons_of_mem _ hjb) rfl, ?_⟩
  · have hall := mem_allIds j
    rw [hsplit, List.mem_append, List.mem_cons] at hall
    exact (hall.resolve_left hja).resolve_left hne
  · obtain ⟨-, -, -, -, hothers⟩ := loseAll_kept s ha
    have hstill : (s.loseAll a).isLost k = true := (hothers k hka).2.trans hlost
    rw [losePeers_eq, hsplit, State.loseAll, List.foldl_append]
    change (s.loseAll a).loseAll (k :: b) = _
    rw [loseAll_cons, if_pos hstill]

theorem losePeer_told (s : State) (k : StationId) :
    { raiser := .roster, notice := { kind := .peerLost, slice := s.clock.index, subject := byte k.val
                                     detail := sliceDetail ((look s.roster.entries k).lastHeard.getD 0) } } ∈
      (s.losePeer k).raised := by
  have hraised : { raiser := .roster, notice := {
      kind := .peerLost, slice := s.clock.index, subject := byte k.val
      detail := sliceDetail ((look s.roster.entries k).lastHeard.getD 0) } } ∈
      ((s.setEntry k { look s.roster.entries k with state := .lost }).raise .roster .peerLost k.val
        (sliceDetail ((look s.roster.entries k).lastHeard.getD 0))).raised :=
    List.mem_append_right _ (List.mem_singleton_self _)
  unfold State.losePeer
  dsimp only
  refine (OnlyServer.tells (purgeRecall_frame _ _)).mem ?_
  split
  · exact (custodyReport_tells _ _ _ _).mem hraised
  · exact hraised

/-- PEER_LOST is raised of every lost peer. -/
theorem losePeers_told {s : State} {k : StationId} (hlost : s.isLost k = true) :
    { raiser := .roster, notice := { kind := .peerLost, slice := s.clock.index, subject := byte k.val
                                     detail := sliceDetail ((look s.roster.entries k).lastHeard.getD 0) } } ∈
      s.losePeers.raised := by
  obtain ⟨a, b, ha, -, hka, -, -, -, hsplit⟩ := losePeers_split hlost
  obtain ⟨-, -, -, hclock, hothers⟩ := loseAll_kept s ha
  have hone := losePeer_told (s.loseAll a) k
  rw [hclock, (hothers k hka).1] at hone
  rw [hsplit]
  exact (loseAll_tells _ b).mem hone

/-- No request of a lost peer stays queued. -/
theorem losePeers_queue {s : State} {q : RecallRequest} (hq : q ∈ s.losePeers.server.queue) :
    s.isLost q.id.requester = false := by
  refine Bool.eq_false_iff.mpr fun hlost => ?_
  obtain ⟨a, b, -, -, -, -, -, -, hsplit⟩ := losePeers_split hlost
  rw [hsplit] at hq
  have hkept := loseAll_queue _ b q hq
  rw [losePeer_queue] at hkept
  exact of_decide_eq_true (List.mem_filter.mp hkept).2 rfl

/-! ### The table -/

/-- What the losses make of an entry. -/
def State.lostEntry (s : State) (e : SpanEntry) : SpanEntry :=
  if s.isLost e.key.owner = true then
    if s.roster.mirror = some e.key.owner then if e.live = true then s.custodyEntry e else e
    else orphan e.key.owner (look s.roster.entries e.key.owner).lastBlock e
  else e

theorem lossOf_of_mem {s : State} {ids : List StationId} {e : SpanEntry} (hmem : e.key.owner ∈ ids)
    (hmirror : s.roster.mirror ≠ some e.key.owner) : s.lossOf ids e = s.lostEntry e := by
  rw [State.lossOf, State.lostEntry, if_neg hmirror]
  simp only [hmem, true_and]

/-- Where the mirror source is not lost, the losses are loss reports alone. -/
theorem losePeers_losses {s : State} (hnot : ∀ k, s.roster.mirror = some k → s.isLost k = false) :
    s.losePeers.spans = { s.spans with table := s.spans.table.map s.lostEntry } := by
  have hnodup : allIds.Nodup := by simp [allIds]
  rw [losePeers_eq, loseAll_losses hnodup fun j _ hj hmirror => nomatch (hnot j hmirror).symm.trans hj]
  refine congrArg (fun t => { s.spans with table := t }) (List.map_congr_left fun e _ => ?_)
  by_cases hmirror : s.roster.mirror = some e.key.owner
  · simp only [State.lossOf, State.lostEntry, hnot _ hmirror, Bool.false_eq_true, and_false, if_false]
  · exact lossOf_of_mem (mem_allIds _) hmirror

/-- The spans at the mirror source's loss, and after all losses. -/
theorem losePeers_custody {s : State} {k : StationId} (hmirror : s.roster.mirror = some k)
    (hlost : s.isLost k = true) : ∃ a b : List StationId, k ∉ a ∧ k ∉ b ∧ (∀ j, j ≠ k → j ∉ a → j ∈ b) ∧
      (∀ j ∈ a, j ∉ b) ∧ s.losePeers.spans.table =
        (closeEach s.custodyEntry (liveOfPeer s.spans.table k) (s.spans.table.map (s.lossOf a))).map
          (s.lossOf b) ∧
      s.losePeers.spans.custody = addCustody s.spans.custody
        { peer := k, join := (look s.roster.entries k).join
          items := (liveOfPeer s.spans.table k).map fun e => (s.custodyEntry e).item } ∧
      { raiser := .spans, notice := { kind := .custodyTaken, slice := s.clock.index, subject := byte k.val
                                      detail := BitVec.ofNat 16 (liveOfPeer s.spans.table k).length } } ∈
        s.losePeers.raised := by
  obtain ⟨a, b, ha, hb, hka, hkb, hcover, hdisjoint, hsplit⟩ := losePeers_split hlost
  obtain ⟨hcontrol, hsource, hrings, hclock, hothers⟩ := loseAll_kept s ha
  have hbefore := loseAll_losses ha fun j hj _ h =>
    hka (Option.some.inj (hmirror.symm.trans h) ▸ hj : k ∈ a)
  have hlive : liveOfPeer (s.loseAll a).spans.table k = liveOfPeer s.spans.table k := by
    rw [hbefore]
    exact liveOfPeer_map (lossOf_key s a) fun e he => lossOf_other s (he ▸ hka)
  have hentry (e : SpanEntry) (he : e ∈ liveOfPeer s.spans.table k) :
      (s.loseAll a).custodyEntry e = s.custodyEntry e := by
    obtain ⟨-, -, howner⟩ := mem_liveOfPeer.mp he
    simp only [State.custodyEntry, State.custodyEnd, State.reportEnd, hrings, hcontrol, howner,
      (hothers k hka).1]
  obtain ⟨htable, hcustody, htold⟩ := losePeer_custody (hsource.trans hmirror)
  have hafter := loseAll_losses hb (s := (s.loseAll a).losePeer k) fun j hj _ h => by
    rw [(losePeer_roster _ k).1, hsource, hmirror] at h
    exact hkb (Option.some.inj h ▸ hj)
  have hsame (e : SpanEntry) (he : e ∈ ((s.loseAll a).losePeer k).spans.table) :
      ((s.loseAll a).losePeer k).lossOf b e = s.lossOf b e := by
    by_cases hmem : e.key.owner ∈ b
    · have hne : e.key.owner ≠ k := fun h => hkb (h ▸ hmem)
      obtain ⟨hlook, hlost'⟩ := losePeer_other hne (s.loseAll a)
      obtain ⟨hlook', hlost''⟩ := hothers _ fun h => hdisjoint _ h hmem
      rw [State.lossOf, State.lossOf, hlook, hlost', hlook', hlost'']
    · rw [lossOf_other _ hmem, lossOf_other _ hmem]
  refine ⟨a, b, hka, hkb, hcover, hdisjoint, ?_, ?_, ?_⟩
  · rw [hsplit, hafter]
    dsimp only
    rw [List.map_congr_left hsame, htable, hlive, closeEach_congr _ hentry, hbefore]
  · rw [hsplit, hafter]
    dsimp only
    rw [hcustody, hlive, hbefore, (hothers k hka).1]
    refine congrArg (addCustody s.spans.custody) (congrArg (CustodyRecord.mk k _) ?_)
    exact List.map_congr_left fun e he => by rw [hentry e he]
  · rw [hlive, hclock] at htold
    rw [hsplit]
    exact (loseAll_tells _ b).mem htold

theorem losePeers_length (s : State) : s.losePeers.spans.table.length = s.spans.table.length := by
  by_cases h : ∃ k, s.roster.mirror = some k ∧ s.isLost k = true
  · obtain ⟨k, hmirror, hlost⟩ := h
    obtain ⟨a, b, -, -, -, -, htable, -⟩ := losePeers_custody hmirror hlost
    rw [htable, List.length_map, closeEach_length, List.length_map]
  · rw [losePeers_losses fun k hk => Bool.eq_false_iff.mpr fun hlost => h ⟨k, hk, hlost⟩]
    exact List.length_map _

/-- Each entry of the table after the losses (R95, R97). -/
theorem losePeers_table {s : State} (hkeys : s.spans.table.Pairwise fun a b => a.key ≠ b.key) {i : Nat}
    {e : SpanEntry} (he : s.spans.table[i]? = some e) :
    s.losePeers.spans.table[i]? = some (s.lostEntry e) := by
  by_cases h : ∃ k, s.roster.mirror = some k ∧ s.isLost k = true
  · obtain ⟨k, hmirror, hlost⟩ := h
    obtain ⟨a, b, hka, hkb, hcover, hdisjoint, htable, -⟩ := losePeers_custody hmirror hlost
    have hbefore : (s.spans.table.map (s.lossOf a))[i]? = some (s.lossOf a e) := by
      rw [List.getElem?_map, he]
      rfl
    have hmem : e ∈ s.spans.table := List.mem_of_getElem? he
    have hnodup : (s.spans.table.map SpanEntry.key).Nodup := List.pairwise_map.mpr hkeys
    have honly : ∀ x ∈ s.spans.table, x.key = e.key → x = e := fun x hx hkey =>
      List.inj_on_of_nodup_map hnodup hx hmem hkey
    rw [htable, List.getElem?_map]
    by_cases howner : e.key.owner = k
    · rw [lossOf_other s (howner ▸ hka)] at hbefore
      have hout (x : SpanEntry) (hx : x.key = e.key) : s.lossOf b x = x :=
        lossOf_other s (by rw [hx, howner]; exact hkb)
      rw [State.lostEntry, howner, if_pos hlost, if_pos hmirror]
      by_cases hlive : e.live = true
      · rw [closeEach_hit (f := s.custodyEntry) (fun _ => rfl) hbefore rfl
          (mem_liveOfPeer.mpr ⟨hmem, hlive, howner⟩) fun x hx => honly x (mem_liveOfPeer.mp hx).1,
          if_pos hlive, Option.map_some, hout (s.custodyEntry e) rfl]
      · rw [closeEach_miss hbefore fun x hx hkey => hlive ?_, if_neg hlive, Option.map_some, hout _ rfl]
        obtain ⟨hx', hxlive, -⟩ := mem_liveOfPeer.mp hx
        exact honly x hx' hkey ▸ hxlive
    · have hnot : s.roster.mirror ≠ some e.key.owner := fun h =>
        howner (Option.some.inj (h.symm.trans hmirror))
      have hmiss : (closeEach s.custodyEntry (liveOfPeer s.spans.table k) (s.spans.table.map (s.lossOf a)))[i]? =
          some (s.lossOf a e) := closeEach_miss hbefore fun x hx hkey => howner (by
        obtain ⟨-, -, hx⟩ := mem_liveOfPeer.mp hx
        rw [← hx, hkey, lossOf_key])
      rw [hmiss, Option.map_some]
      refine congrArg some ?_
      by_cases hmema : e.key.owner ∈ a
      · have hout : (s.lossOf a e).key.owner ∉ b := by
          rw [lossOf_key]
          exact hdisjoint _ hmema
        rw [lossOf_other s hout, lossOf_of_mem hmema hnot]
      · rw [lossOf_other s hmema, lossOf_of_mem (hcover _ howner hmema) hnot]
  · rw [losePeers_losses fun k hk => Bool.eq_false_iff.mpr fun hlost => h ⟨k, hk, hlost⟩]
    dsimp only
    rw [List.getElem?_map, he]
    rfl

theorem addCustody_last (records : List CustodyRecord) (r : CustodyRecord) :
    (addCustody records r).getLast? = some r ∧
    ∀ x ∈ (addCustody records r).dropLast, x ∈ records ∧ x.peer ≠ r.peer := by
  unfold addCustody
  dsimp only
  refine ⟨List.getLast?_concat, fun x hx => ?_⟩
  rw [List.dropLast_concat] at hx
  have hothers : x ∈ records.filter fun x => decide (x.peer ≠ r.peer) := by
    split at hx
    · exact hx
    · exact List.mem_of_mem_drop hx
  obtain ⟨hmem, hpeer⟩ := List.mem_filter.mp hothers
  exact ⟨hmem, of_decide_eq_true hpeer⟩

/-! ### The selections -/

/-- The selections read the entries, the mode, the ID and the mirror share alone. -/
theorem choose_congr {s t : State} (hcontrol : t.control.id = s.control.id) (hactive : t.active = s.active)
    (hshare : t.control.charter.mirrorShare = s.control.charter.mirrorShare)
    (hentries : t.roster.entries = s.roster.entries) :
    t.chooseReference = s.chooseReference ∧ t.chooseMirror = s.chooseMirror := by
  have hcandidate (k : StationId) : (t.entry k).candidate = (s.entry k).candidate := by
    by_cases hk : k = s.control.id
    · have ht := ownEntry_candidate_iff t
      have hs := ownEntry_candidate_iff s
      rw [hactive, hcontrol] at ht
      rw [hk]
      exact Bool.eq_iff_iff.mpr (ht.trans hs.symm)
    · rw [State.entry, State.entry, if_neg hk, if_neg (by rw [hcontrol]; exact hk), hentries]
  constructor
  · simp only [State.chooseReference, hcandidate]
  · simp only [State.chooseMirror, hcandidate, hcontrol, hactive, hshare]

/-- The clock after a changed reference in RUN or IDLE (R6). -/
theorem recompute_clock_changed {s : State} (hactive : s.active = true)
    (hchanged : s.chooseReference ≠ s.roster.reference) : s.recompute.clock =
      if s.clock.discipline = .free then s.clock
      else if s.chooseReference = some s.control.id then
        (if s.clock.discipline = .selfRef then s.clock
        else { s.clock with
          discipline := .selfRef, goodRun := 0, badRun := 0
          plan := if s.clock.discipline = .realign then none else s.clock.plan })
      else if s.clock.discipline = .realign then { s.clock with plan := none }
      else { s.clock with discipline := .tracking, goodRun := 0, badRun := 0 } := by
  rw [recompute_clock, presentReference_changed hchanged, hactive, if_pos rfl]
  unfold State.followReference
  simp only [State.tellReference, raise_clock, raise_control, withRoster_clock, withRoster_control]
  by_cases hown : s.chooseReference = some s.control.id
  · cases hd : s.clock.discipline <;> simp [hown, Clock.enter, State.withClock, State.raise, State.withRoster]
  · cases hd : s.clock.discipline <;> simp [hown, Clock.enter, State.withClock, State.raise, State.withRoster]

theorem recompute_clock_same {s : State} (hsame : s.chooseReference = s.roster.reference) :
    s.recompute.clock = s.clock := by
  rw [recompute_clock, presentReference_same hsame]

/-! ### PEER_LOST -/

theorem isLost_iff (s : State) (k : StationId) : s.isLost k = true ↔ k ≠ s.control.id ∧
    (look s.roster.entries k).state = .present ∧
    s.control.charter.lossSlices < (look s.roster.entries k).silence := decide_eq_true_iff

theorem exec_peerLost {s : State} (hreset : s.resetN = true) :
    exec .peerLost s = .next s.losePeers.recompute.finish :=
  congrArg Host.Outcome.next (whenRunning_high hreset _)

/-- The roster that a recomputation and the command's end leave, and the selections it gives. -/
theorem finish_selections (s : State) : s.recompute.finish.roster.entries = s.roster.entries ∧
    s.recompute.finish.roster.reference = s.chooseReference ∧
    s.recompute.finish.roster.mirror = s.chooseMirror ∧
    s.recompute.finish.chooseReference = s.chooseReference ∧
    s.recompute.finish.chooseMirror = s.chooseMirror := by
  have hcontrol := recompute_control s
  have hroster := recompute_roster s
  obtain ⟨hreference, hmirror⟩ := choose_congr (s := s) (t := s.recompute.finish)
    (by rw [finish_control, hcontrol])
    (by rw [State.active, finish_control, ← State.active, recompute_active])
    (by rw [finish_control, hcontrol]) (by rw [finish_roster, hroster])
  refine ⟨?_, ?_, ?_, hreference, hmirror⟩ <;> rw [finish_roster, hroster]

theorem recompute_spans (s : State) : s.recompute.spans = s.spans := by
  obtain ⟨_, _, _, _, _, _, h⟩ := recompute_frame s
  rw [h]

theorem recompute_server (s : State) : s.recompute.server = s.server := by
  obtain ⟨_, _, _, _, _, _, h⟩ := recompute_frame s
  rw [h]

/-- What PEER_LOST leaves as it is. -/
theorem losses_rest (s : State) : s.losePeers.recompute.finish = { s with
    clock := s.losePeers.recompute.finish.clock, roster := s.losePeers.recompute.finish.roster
    spans := s.losePeers.recompute.finish.spans, rings := s.losePeers.recompute.finish.rings
    store := s.losePeers.recompute.finish.store, server := s.losePeers.recompute.finish.server
    control := { s.control with correction := s.losePeers.recompute.finish.control.correction }
    notices := s.losePeers.recompute.finish.notices, freeUses := s.losePeers.recompute.finish.freeUses
    raised := [] } := by
  obtain ⟨_, _, _, _, hpeers⟩ := losePeers_onlyPeers s
  have hcontrol := recompute_control s.losePeers
  rw [(losePeers_roster s).1] at hcontrol
  obtain ⟨_, _, _, _, _, _, hselected⟩ := recompute_frame s.losePeers
  have hrest := finish_rest s.losePeers.recompute
  rw [finish_clock, finish_roster, finish_spans, finish_control]
  generalize s.losePeers.recompute.finish = t at hrest ⊢
  generalize s.losePeers.recompute = u at hrest hcontrol hselected ⊢
  generalize s.losePeers = v at hpeers hselected hcontrol ⊢
  have hcorrection : u.control = { s.control with correction := u.control.correction } := by
    rw [hcontrol]
  rw [← hcorrection, hrest, hselected, hpeers]

/-- What a changed selection raises. -/
theorem recompute_told (s : State) :
    (s.chooseReference ≠ s.roster.reference →
      { raiser := .roster, notice := { kind := .referenceChanged, slice := s.clock.index
                                       subject := byte (idOr255 s.chooseReference)
                                       detail := BitVec.ofNat 16 (idOr255 s.roster.reference) } } ∈
        s.recompute.raised ∧
      (s.active = true → s.clock.discipline = .locked →
        { raiser := .clock, notice := { kind := .unlocked, slice := s.clock.index
                                        subject := byte (idOr255 s.roster.reference)
                                        detail := BitVec.ofInt 16 s.clock.trim } } ∈ s.recompute.raised)) ∧
    (s.chooseMirror ≠ s.roster.mirror →
      { raiser := .roster, notice := { kind := .mirrorSourceChanged, slice := s.clock.index
                                       subject := byte (idOr255 s.chooseMirror)
                                       detail := BitVec.ofNat 16 (idOr255 s.roster.mirror) } } ∈
        s.recompute.raised) := by
  rw [recompute_raised]
  refine ⟨fun hchanged => ?_, fun hchanged => ?_⟩
  · rw [if_neg hchanged]
    refine ⟨by simp, fun hactive hlocked => ?_⟩
    rw [if_pos ⟨hactive, hlocked⟩]
    simp
  · rw [if_neg hchanged]
    simp

/-- Settles O16: the losses one after another, the recomputation behind them and the command's end. -/
theorem peerLostKeepsFields : Obligations.PeerLostKeepsFields := by
  intro s hreset lost endOf runEndOf
  have hlost (k : StationId) : lost k ↔ s.isLost k = true := (isLost_iff s k).symm
  have hend (e : SpanEntry) : endOf e = (look s.roster.entries e.key.owner).lastBlock.getD e.key.openSlice := rfl
  have hrun (e : SpanEntry) : runEndOf e = s.custodyEnd e := rfl
  obtain ⟨hcontrol, hreference, hmirror, hentries⟩ := losePeers_roster s
  have hclock : s.losePeers.clock = s.clock := losePeers_clock s
  have hactive : s.losePeers.active = s.active := by rw [State.active, State.active, hcontrol]
  have hexec := exec_peerLost hreset
  have hselections := finish_selections s.losePeers
  have hspans := (finish_spans s.losePeers.recompute).trans (recompute_spans s.losePeers)
  have hqueue := (finish_queue s.losePeers.recompute).trans
    (congrArg Recall.queue (recompute_server s.losePeers))
  have hmoved := finish_clock s.losePeers.recompute
  have htells := recompute_tells s.losePeers
  have hrest := losses_rest s
  have htold := recompute_told s.losePeers
  have hfollowed := recompute_clock_changed (s := s.losePeers)
  have hstays := recompute_clock_of_inactive (s := s.losePeers)
  have hstays' := recompute_clock_same (s := s.losePeers)
  rw [hclock, hreference, hactive, hmirror] at htold
  rw [hclock, hreference, hactive, hcontrol] at hfollowed
  rw [hclock, hactive] at hstays
  rw [hclock, hreference] at hstays'
  generalize s.losePeers.recompute = v at *
  intro u
  change exec .peerLost s = .next u.finish at hexec
  generalize v.finish = w at *
  intro t told
  obtain ⟨htoldReference, htoldMirror⟩ := htold
  obtain ⟨hkept, hselected, hselected', hchosen, hchosen'⟩ := hselections
  refine ⟨hexec, fun k hother hpresent hsilent => ?_, fun k hnot => ?_, fun q hq _ hql => ?_,
    hselected.trans hchosen.symm, hselected'.trans hchosen'.symm, fun hchanged => ?_, fun hchanged => ?_,
    fun hsame => ?_, fun hrunning hchanged => ?_, fun hkeys => ⟨?_, fun i e he => ⟨fun hl hnot hopen => ?_,
      fun hl hsource hlive => ?_, fun hleft => ?_⟩⟩, fun k hsource hl => ?_, fun hnot => ?_, ?_⟩
  · have hk : s.isLost k = true := (isLost_iff s k).mpr ⟨hother, hpresent, hsilent⟩
    refine ⟨?_, htells.mem (losePeers_told hk)⟩
    rw [hkept]
    exact (hentries k).trans (if_pos hk)
  · have hk : ¬ s.isLost k = true := by
      rw [isLost_iff]
      rintro ⟨hother, hpresent, hsilent⟩
      obtain h | h | h := hnot
      · exact hother h
      · exact h hpresent
      · omega
    rw [hkept]
    exact (hentries k).trans (if_neg hk)
  · rw [hqueue] at hq
    exact nomatch (losePeers_queue hq).symm.trans ((hlost _).mp hql)
  · rw [hselected] at hchanged ⊢
    exact htoldReference hchanged
  · rw [hselected'] at hchanged ⊢
    exact htoldMirror hchanged
  · obtain hinactive | hsame := hsame
    · exact hmoved.trans (hstays hinactive)
    · exact hmoved.trans (hstays' (hselected.symm.trans hsame))
  · rw [hselected] at hchanged ⊢
    exact hmoved.trans (hfollowed hrunning hchanged)
  · rw [hspans, losePeers_length]
  · rw [hspans, losePeers_table hkeys he, State.lostEntry, if_pos ((hlost _).mp hl), if_neg hnot, hend]
    exact congrArg some (if_pos ⟨rfl, hopen⟩)
  · rw [hspans, losePeers_table hkeys he, State.lostEntry, if_pos ((hlost _).mp hl), if_pos hsource,
      if_pos hlive, hrun]
    rfl
  · rw [hspans, losePeers_table hkeys he, State.lostEntry]
    by_cases hl : s.isLost e.key.owner = true
    · rw [if_pos hl]
      by_cases hsource : s.roster.mirror = some e.key.owner
      · have hdead : ¬ e.live = true := by
          obtain h | h | h := hleft
          · exact absurd ((hlost _).mpr hl) h
          · rw [h]; decide
          · exact absurd hsource h.1
        rw [if_pos hsource, if_neg hdead]
      · rw [if_neg hsource]
        refine congrArg some (if_neg ?_)
        rintro ⟨-, hopen⟩
        obtain h | h | h := hleft
        · exact h ((hlost _).mpr hl)
        · rw [SpanEntry.live, hopen] at h
          exact nomatch h
        · exact h.2 hopen
    · rw [if_neg hl]
  · obtain ⟨a, b, -, -, -, -, -, hcustody, htaken⟩ := losePeers_custody hsource ((hlost k).mp hl)
    obtain ⟨hlast, hdrop⟩ := addCustody_last s.spans.custody
      { peer := k, join := (look s.roster.entries k).join
        items := (liveOfPeer s.spans.table k).map fun e => (s.custodyEntry e).item }
    rw [hspans, hcustody]
    rw [liveOfPeer_length] at htaken
    refine ⟨_, hlast, htells.mem htaken, rfl, rfl, hdrop, fun x => ?_⟩
    simp only [List.mem_map, mem_liveOfPeer, hrun]
    exact ⟨fun ⟨e, ⟨hmem, hlive, howner⟩, hx⟩ => ⟨e, hmem, hlive, howner, hx.symm⟩,
      fun ⟨e, hmem, hlive, howner, hx⟩ => ⟨e, ⟨hmem, hlive, howner⟩, hx.symm⟩⟩
  · rw [hspans, losePeers_losses fun k hk => Bool.eq_false_iff.mpr fun h => hnot k hk ((hlost k).mpr h)]
    exact ⟨rfl, rfl⟩
  · exact hrest

end Sys2Proof.Machine
end


section
/-! SUPPORT. One lane among the others at a boundary (R74): the work on one lane's detector leaves the other
lanes' detectors and adds no entry of theirs. -/

namespace Sys2Proof.Machine

/-! ### What leaves a lane alone -/

/-- The lane's detector is as it was, and every entry of the lane has the key of an entry that was there. -/
def Elsewhere (l : Lane) (s t : State) : Prop :=
  look t.spans.detectors l = look s.spans.detectors l ∧
    ∀ x ∈ t.spans.table, x.key.lane = l → ∃ y ∈ s.spans.table, y.key = x.key

theorem Elsewhere.refl (l : Lane) (s : State) : Elsewhere l s s := ⟨rfl, fun x hx _ => ⟨x, hx, rfl⟩⟩

theorem Elsewhere.trans {l : Lane} {s t u : State} (h : Elsewhere l s t) (h' : Elsewhere l t u) :
    Elsewhere l s u := by
  refine ⟨h'.1.trans h.1, fun x hx hlane => ?_⟩
  obtain ⟨y, hy, hyx⟩ := h'.2 x hx hlane
  obtain ⟨z, hz, hzy⟩ := h.2 y hy ((congrArg SpanKey.lane hyx).trans hlane)
  exact ⟨z, hz, hzy.trans hyx⟩

theorem Elsewhere.of_spans {l : Lane} {s t : State} (h : t.spans = s.spans) : Elsewhere l s t := by
  unfold Elsewhere
  rw [h]
  exact Elsewhere.refl l s

theorem entryOf_eq_none {table : List SpanEntry} {k : SpanKey} :
    entryOf table k = none ↔ ∀ x ∈ table, x.key ≠ k := by
  simp [entryOf, List.find?_eq_none]

/-- A key of the lane that was not in the table is still not in it. -/
theorem Elsewhere.entryOf_none {l : Lane} {s t : State} (h : Elsewhere l s t) {k : SpanKey} (hlane : k.lane = l)
    (hnone : entryOf s.spans.table k = none) : entryOf t.spans.table k = none := by
  rw [entryOf_eq_none] at hnone ⊢
  intro x hx hkey
  obtain ⟨y, hy, hyx⟩ := h.2 x hx (hkey ▸ hlane)
  exact hnone y hy (hyx.trans hkey)

theorem foldl_elsewhere {α : Type} {l : Lane} {f : State → α → State} {xs : List α}
    (step : ∀ x ∈ xs, ∀ s, Elsewhere l s (f s x)) (s : State) : Elsewhere l s (xs.foldl f s) := by
  induction xs generalizing s with
  | nil => exact .refl l s
  | cons x xs ih =>
    exact (step x List.mem_cons_self s).trans (ih (fun y hy => step y (List.mem_cons_of_mem _ hy)) _)

section Operations

variable {l : Lane} (s : State)

theorem map_elsewhere {g : SpanEntry → SpanEntry} (hkey : ∀ x, (g x).key = x.key) :
    Elsewhere l s (s.withSpans { s.spans with table := s.spans.table.map g }) := by
  refine ⟨rfl, fun x hx _ => ?_⟩
  obtain ⟨y, hy, rfl⟩ := List.mem_map.mp hx
  exact ⟨y, hy, (hkey y).symm⟩

theorem announce_elsewhere (i : SpanItem) : Elsewhere l s (s.announce i) := by
  refine ⟨?_, fun x hx _ => ⟨x, (announce_table s i).1 ▸ hx, rfl⟩⟩
  unfold State.announce
  split
  · rfl
  · split <;> rfl

theorem evict_elsewhere : Elsewhere l s s.evict := by
  unfold State.evict
  split
  · exact ⟨rfl, fun x hx _ => ⟨x, (List.mem_filter.mp hx).1, rfl⟩⟩
  · split
    · exact ⟨rfl, fun x hx _ => ⟨x, (List.mem_filter.mp hx).1, rfl⟩⟩
    · exact .refl l s

theorem insertEntry_elsewhere {e : SpanEntry} (hlane : e.key.lane ≠ l) : Elsewhere l s (s.insertEntry e) := by
  have append (u : State) : Elsewhere l u (State.appendEntry e u) := by
    unfold State.appendEntry
    split
    · refine ⟨rfl, fun x hx hxl => ?_⟩
      obtain hx | hx := List.mem_append.mp hx
      · exact ⟨x, hx, rfl⟩
      · rw [List.mem_singleton.mp hx] at hxl
        exact absurd hxl hlane
    · exact .refl l u
  rw [insertEntry_eq]
  split
  · exact append s
  · exact (evict_elsewhere s).trans (append _)

theorem setDetector_elsewhere {j : Lane} (hne : j ≠ l) (d : Detector) : Elsewhere l s (s.setDetector j d) := by
  refine ⟨?_, fun x hx _ => ⟨x, hx, rfl⟩⟩
  rw [setDetector_spans]
  exact (look_put _ _ _ _).trans (if_neg hne.symm)

/-- The entry of a key replaced by one of the same key. -/
theorem replace_elsewhere {k : SpanKey} {e : SpanEntry} (hkey : e.key = k) :
    Elsewhere l s (s.withSpans { s.spans with table := updateEntry s.spans.table k fun _ => e }) := by
  refine map_elsewhere s fun x => ?_
  split
  · next hx => exact hkey.trans hx.symm
  · rfl

theorem closeOwn_elsewhere (k : SpanKey) (u : Slice) (c : CloseCause) : Elsewhere l s (s.closeOwn k u c) := by
  unfold State.closeOwn
  split
  · exact .refl l s
  · next e he =>
    have hkey : (e.close u c s.control.id).key = k := (entryOf_key he : e.key = k)
    exact (replace_elsewhere s hkey).trans (announce_elsewhere _ _)

theorem custodyClose_elsewhere (e : SpanEntry) (u : Slice) : Elsewhere l s (s.custodyClose e u) :=
  (replace_elsewhere s (e := e.close u .stationLost s.control.id) rfl).trans (announce_elsewhere _ _)

variable {j : Lane} (hne : j ≠ l)

include hne

theorem tryOpen_elsewhere (t : Slice) (c : Condition) (b : Bool) (u : Slice) :
    Elsewhere l s (s.tryOpen j t c b u) := by
  unfold State.tryOpen
  split
  · exact setDetector_elsewhere s hne _
  · exact ((insertEntry_elsewhere s (e := s.newEntry j t c b) hne).trans (announce_elsewhere _ _)).trans
      (setDetector_elsewhere _ hne _)

theorem onsetAt_elsewhere (b : Block) (n : Nat) (t : Slice) : Elsewhere l s (s.onsetAt j b n t) := by
  unfold State.onsetAt
  split
  · exact tryOpen_elsewhere s hne _ _ _ _
  · exact setDetector_elsewhere s hne _

theorem hangAt_elsewhere (n : Nat) (t : Slice) (k : SpanKey) : Elsewhere l s (s.hangAt j n t k) := by
  unfold State.hangAt
  split
  · exact (closeOwn_elsewhere s _ _ _).trans (setDetector_elsewhere _ hne _)
  · exact setDetector_elsewhere s hne _

theorem evaluate_elsewhere (b : Block) : Elsewhere l s (s.evaluate j b) := by
  unfold State.evaluate
  split
  · exact .refl l s
  · exact .refl l s
  · split
    · exact onsetAt_elsewhere s hne _ _ _
    · exact .refl l s
  · split
    · exact onsetAt_elsewhere s hne _ _ _
    · exact setDetector_elsewhere s hne _
  · split
    · exact setDetector_elsewhere s hne _
    · exact hangAt_elsewhere s hne _ _ _
  · split
    · exact setDetector_elsewhere s hne _
    · exact hangAt_elsewhere s hne _ _ _

omit hne in
theorem closeHeld_elsewhere (c : CloseCause) : Elsewhere l s (s.closeHeld j c) := by
  unfold State.closeHeld
  split
  · exact closeOwn_elsewhere s _ _ _
  · exact closeOwn_elsewhere s _ _ _
  all_goals exact .refl l s

theorem faultChange_elsewhere (c : FaultChange) : Elsewhere l s (s.faultChange j c) := by
  unfold State.faultChange
  split
  · exact .refl l s
  · split
    · exact .refl l s
    · exact (closeHeld_elsewhere s _).trans (setDetector_elsewhere _ hne _)
  · split
    · exact setDetector_elsewhere s hne _
    · exact .refl l s

theorem detectChange_elsewhere (c : Charter) : Elsewhere l s (s.detectChange j c) := by
  unfold State.detectChange
  dsimp only
  split
  · exact (closeHeld_elsewhere s _).trans (setDetector_elsewhere _ hne _)
  · split
    · exact setDetector_elsewhere s hne _
    · exact .refl l s

theorem detectOnly_elsewhere (c : Option Charter) : Elsewhere l s (State.detectOnly c s j) := by
  cases c with
  | none => exact .refl l s
  | some c => exact detectChange_elsewhere s hne c

theorem splitLane_elsewhere (p : Split) : Elsewhere l s (s.splitLane j p) := by
  unfold State.splitLane
  split
  · dsimp only
    split
    · exact (closeOwn_elsewhere s _ _ _).trans (setDetector_elsewhere _ hne _)
    · exact (closeOwn_elsewhere s _ _ _).trans (tryOpen_elsewhere _ hne _ _ _ _)
  · exact (closeOwn_elsewhere s _ _ _).trans (setDetector_elsewhere _ hne _)
  · exact setDetector_elsewhere s hne _
  all_goals exact .refl l s

/-- R74's work on one lane leaves every other lane alone. -/
theorem detectorLane_elsewhere (b : Block) (c : FaultChange) (n : Option Charter) (p : Option Split) :
    Elsewhere l s (s.detectorLane j b c n p) := by
  have judged : Elsewhere l s (if c = .none then s.evaluate j b else s.faultChange j c) := by
    split
    · exact evaluate_elsewhere s hne b
    · exact faultChange_elsewhere s hne c
  have set := judged.trans (detectOnly_elsewhere _ hne n)
  cases n with
  | none =>
    cases p with
    | none => exact set
    | some p => exact set.trans (splitLane_elsewhere _ hne p)
  | some n =>
    cases p with
    | none => exact set
    | some p => exact set.trans (splitLane_elsewhere _ hne p)

end Operations

/-! ### Before seat capture -/

theorem custodyReport_elsewhere (l : Lane) (s : State) (k : StationId) (join lastBlock : Option Slice) :
    Elsewhere l s (s.custodyReport k join lastBlock) := by
  unfold State.custodyReport
  exact .trans (foldl_elsewhere (fun e _ v => custodyClose_elsewhere v e _) s) ⟨rfl, fun x hx _ => ⟨x, hx, rfl⟩⟩

theorem losePeer_elsewhere (l : Lane) (s : State) (k : StationId) : Elsewhere l s (s.losePeer k) := by
  have purged (v : State) : Elsewhere l v (v.purgeRecall k) := .of_spans rfl
  unfold State.losePeer
  dsimp only
  refine .trans ?_ (purged _)
  split
  · exact .trans (.of_spans rfl) (custodyReport_elsewhere l _ _ _ _)
  · exact map_elsewhere _ (orphan_key _ _)

theorem losePeers_elsewhere (l : Lane) (s : State) : Elsewhere l s s.losePeers := by
  refine foldl_elsewhere (fun k _ u => ?_) s
  split
  · exact losePeer_elsewhere l u k
  · exact .refl l u

theorem ageOrphan_key (e : SpanEntry) : (ageOrphan e).key = e.key := by
  unfold ageOrphan
  split <;> rfl

theorem timeOut_key (n : Nat) (k : StationId) (e : SpanEntry) : (timeOut n k e).key = e.key := by
  unfold timeOut
  split
  · split <;> rfl
  all_goals rfl

/-- Up to the losses a boundary leaves every lane alone. -/
theorem reported_elsewhere (l : Lane) (s : State) (b : Bool) (p : Presented) (n : Nat) :
    Elsewhere l s (s.reported b p n) := by
  refine .trans (.of_spans (clockBoundary_onlyClock { s with stopN := b } p n).spans)
    (.trans ?_ (losePeers_elsewhere l _))
  generalize ({ s with stopN := b } : State).clockBoundary p n = u
  exact (map_elsewhere u ageOrphan_key).trans ((map_elsewhere u.ageOrphans (timeOut_key _ _)).trans
    (.of_spans rfl))

end Sys2Proof.Machine
end


section
/-! SUPPORT. A boundary that ends a captured slice (R23 to R29): the lanes' fault states, the slice page and
where it is staged, and the notices. -/

namespace Sys2Proof.Machine

/-! ### The state in which seat capture acts -/

/-- The losses have been reported, and the page awaiting an outcome is settled UNSENT (R31). -/
def State.unsettled (s : State) (b : Bool) (p : Presented) (n : Nat) : State :=
  (s.reported b p n).settleUnsent

/-- The lanes' fault states have been updated (R26, R27). -/
def State.faulted (s : State) (p : Presented) : State := s.presentLanes.foldl (s.updateLane p) s

/-- The span detectors have acted on the lanes of a list. -/
def State.heard (s : State) (p : Presented) (q : Option Split) (lanes : List Lane) (t : State) : State :=
  lanes.foldl (fun t l => t.detectorLane l (s.blockOf p l) (s.faultOf p l).2.1 s.newCharter q) t

theorem capturedBoundary_eq (s : State) (p : Presented) (q : Option Split) :
    s.capturedBoundary p q = (s.heard p q s.presentLanes (s.faulted p)).stageCapture (s.pageOf p) := rfl

theorem heard_onlySpans (s : State) (p : Presented) (q : Option Split) (lanes : List Lane) (t : State) :
    OnlySpans t (s.heard p q lanes t) :=
  foldl_frame OnlySpans.refl OnlySpans.trans _ (fun t l => detectorLane_frame t l _ _ _ _) _ _

/-- What seat capture finds at a boundary. -/
theorem unsettled_fields (s : State) (b : Bool) (p : Presented) (n : Nat) :
    (∃ x, (s.unsettled b p n).seat = { s.seat with unsentSlices := x }) ∧
    (s.unsettled b p n).store = { s.store with capture := settledAs .unsent s.store.capture } ∧
    (s.unsettled b p n).control = s.control ∧
    (s.unsettled b p n).clock = (({ s with stopN := b } : State).clockBoundary p n).clock ∧
    (s.unsettled b p n).spans = (s.reported b p n).spans := by
  have hclock : (s.reported b p n).clock = (({ s with stopN := b } : State).clockBoundary p n).clock := by
    simp only [State.reported, losePeers_clock, ageing_clock]
  obtain ⟨_, _, _, _, _, h⟩ := reported_frame s b p n
  rw [State.unsettled, settleUnsent_eq]
  rw [h] at hclock ⊢
  exact ⟨⟨_, rfl⟩, rfl, rfl, hclock, rfl⟩

theorem unsettled_index (s : State) (b : Bool) (p : Presented) (n : Nat) :
    (s.unsettled b p n).clock.index = p.next := by
  obtain ⟨-, -, -, h, -⟩ := unsettled_fields s b p n
  rw [h, clockBoundary_index]

/-- The block of a lane depends on its accumulator and on the condition in force. -/
theorem unsettled_blocks (s : State) (b : Bool) (p : Presented) (n : Nat) (l : Lane) :
    (s.unsettled b p n).blockOf p l = s.blockOf p l ∧ (s.unsettled b p n).faultOf p l = s.faultOf p l := by
  obtain ⟨⟨x, hseat⟩, -, hcontrol, -, -⟩ := unsettled_fields s b p n
  have hblock : (s.unsettled b p n).blockOf p l = s.blockOf p l := by
    rw [State.blockOf, hseat, hcontrol]
    rfl
  refine ⟨hblock, ?_⟩
  rw [State.faultOf, hblock, hseat]
  rfl

theorem unsettled_lanes (s : State) (b : Bool) (p : Presented) (n : Nat) :
    (s.unsettled b p n).presentLanes = s.presentLanes ∧ (s.unsettled b p n).newCharter = s.newCharter := by
  obtain ⟨⟨x, hseat⟩, -, hcontrol, -, -⟩ := unsettled_fields s b p n
  constructor
  · rw [State.presentLanes, hseat]
    rfl
  · rw [State.newCharter, hcontrol]
    rfl

theorem heard_unsettled (s : State) (b : Bool) (p : Presented) (n : Nat) (q : Option Split) (lanes : List Lane)
    (t : State) : (s.unsettled b p n).heard p q lanes t = s.heard p q lanes t := by
  unfold State.heard
  rw [(unsettled_lanes s b p n).2]
  refine congrFun (congrFun (congrArg List.foldl (funext₂ fun t l => ?_)) t) lanes
  rw [(unsettled_blocks s b p n l).1, (unsettled_blocks s b p n l).2]

/-! ### The lanes' fault states -/

/-- Only the lanes' fault states and the raised notices differ. -/
def OnlyFaults (s t : State) : Prop := ∃ f r, t = { s with seat := { s.seat with faults := f }, raised := r }

theorem OnlyFaults.refl (s : State) : OnlyFaults s s := ⟨_, _, rfl⟩

theorem OnlyFaults.trans {s t u : State} : OnlyFaults s t → OnlyFaults t u → OnlyFaults s u := by
  rintro ⟨_, _, rfl⟩ ⟨_, _, rfl⟩; exact ⟨_, _, rfl⟩

theorem updateLane_onlyFaults (o : State) (p : Presented) (s : State) (l : Lane) :
    OnlyFaults s (o.updateLane p s l) := by
  unfold State.updateLane
  dsimp only
  split <;> exact ⟨_, _, rfl⟩

theorem faulted_onlyFaults (s : State) (p : Presented) : OnlyFaults s (s.faulted p) :=
  foldl_frame OnlyFaults.refl OnlyFaults.trans _ (updateLane_onlyFaults s p) _ _

/-- Every present lane's fault state takes its block (R26, R27). -/
theorem faulted_faults (s : State) (p : Presented) (l : Lane) : look (s.faulted p).seat.faults l =
    if l.val < s.seat.laneCount then (s.faultOf p l).1 else look s.seat.faults l := by
  have h := look_foldl_put (s.updateLane p) (fun t => t.seat.faults) (fun l _ => (s.faultOf p l).1)
    (fun t l => by rw [updateLane_seat]) s.presentLanes (presentLanes_nodup s) s l
  simp only [mem_presentLanes] at h
  exact h

theorem roomSeat_eq (k : StationId) (l : Lane) : roomSeat k l = 8 * k.val + l.val := by
  rw [roomSeat, Nat.mul_comm]

/-- LANE_FAULT and LANE_RESTORED, with the slice that begins (R33). -/
theorem faulted_raised {s : State} (p : Presented) {l : Lane} (hl : l.val < s.seat.laneCount) :
    let report (kind : NoticeKind) (detail : Half) : Raised :=
      { raiser := .seat
        notice := { kind := kind, slice := s.clock.index
                    subject := byte (8 * s.control.id.val + l.val), detail := detail } }
    ((s.faultOf p l).2.1 = .enteredFault →
      report .laneFault (sliceDetail (s.faultOf p l).2.2.1) ∈ (s.faulted p).raised) ∧
    ((s.faultOf p l).2.1 = .restored →
      report .laneRestored (BitVec.ofNat 16 (s.faultOf p l).2.2.2) ∈ (s.faulted p).raised) := by
  intro report
  obtain ⟨before, after, hsplit⟩ := List.append_of_mem (mem_presentLanes.mpr hl)
  have hbefore : OnlyFaults s (before.foldl (s.updateLane p) s) :=
    foldl_frame OnlyFaults.refl OnlyFaults.trans _ (updateLane_onlyFaults s p) _ _
  have hlater : Tells (s.updateLane p (before.foldl (s.updateLane p) s) l) (s.faulted p) := by
    rw [State.faulted, hsplit, List.foldl_append]
    exact foldl_tells (updateLane_tells s p) _ _
  obtain ⟨f, r, h⟩ := hbefore
  rw [h] at hlater
  dsimp only [report]
  rw [← roomSeat_eq]
  constructor
  · intro hfault
    refine hlater.mem ?_
    rw [State.updateLane, hfault]
    exact List.mem_append_right _ (List.mem_singleton.mpr rfl)
  · intro hrestored
    refine hlater.mem ?_
    rw [State.updateLane, hrestored]
    exact List.mem_append_right _ (List.mem_singleton.mpr rfl)

/-! ### The slice page (R29) and its staging (R134, R136) -/

theorem stageCapture_of_room {s : State} (p : OwnPage) (hroom : s.store.capture.length < 2) :
    s.stageCapture p = s.withStore { s.store with capture := s.store.capture ++ [p] } :=
  if_pos hroom

theorem stageCapture_of_full {s : State} (p : OwnPage) {x y : OwnPage} (hfull : s.store.capture = [x, y]) :
    s.stageCapture p = (s.withStore { s.store with
      capture := [if s.store.captureWrite = none then y else x, p], drops := s.store.drops + 1 }).raise .store
        .stagingOverflow 0 (sliceDetail (if s.store.captureWrite = none then x else y).slice) := by
  unfold State.stageCapture
  rw [hfull]
  cases s.store.captureWrite <;> rfl

theorem seatBoundary_of_captured {s : State} (p : Presented) (q : Option Split)
    (hcapturing : s.settleUnsent.seat.capturing = true) :
    s.seatBoundary p q = s.settleUnsent.capturedBoundary p q :=
  if_pos hcapturing

/-- Seat capture and the store controller's staging, after a boundary that ends a captured slice. -/
theorem seated_captured {s : State} (b : Bool) (p : Presented) (n : Nat) (hcapturing : s.seat.capturing = true) :
    s.seated b p n = (s.heard p (s.splitAt b p.stepped p.ended p.next) s.presentLanes
      ((s.unsettled b p n).faulted p)).stageCapture (s.pageOf p) := by
  obtain ⟨⟨x, hseat⟩, -, -, -, -⟩ := unsettled_fields s b p n
  have hpage : (s.unsettled b p n).pageOf p = s.pageOf p := by
    simp only [State.pageOf, (unsettled_blocks s b p n _).1, hseat]
  have hsettled : (s.reported b p n).settleUnsent.seat.capturing = true := by
    rw [← State.unsettled, hseat]
    exact hcapturing
  rw [State.seated, seatBoundary_of_captured p _ hsettled, ← State.unsettled, capturedBoundary_eq, hpage,
    heard_unsettled, (unsettled_lanes s b p n).1]

/-! ### After seat capture -/

theorem OnlySelections.seat {s t : State} : OnlySelections s t → t.seat = s.seat := by
  rintro ⟨_, _, _, _, _, _, rfl⟩; rfl
theorem OnlyClock.seat {s t : State} : OnlyClock s t → t.seat = s.seat := by
  rintro ⟨_, _, rfl⟩; rfl
theorem OnlyCharter.seat {s t : State} : OnlyCharter s t → t.seat = s.seat := by
  rintro ⟨_, _, _, _, _, _, rfl⟩; rfl
theorem OnlyControl.seat {s t : State} : OnlyControl s t → t.seat = s.seat := by
  rintro ⟨_, _, rfl⟩; rfl
theorem OnlySelections.store {s t : State} : OnlySelections s t → t.store = s.store := by
  rintro ⟨_, _, _, _, _, _, rfl⟩; rfl
theorem OnlyClock.store {s t : State} : OnlyClock s t → t.store = s.store := by
  rintro ⟨_, _, rfl⟩; rfl
theorem OnlyControl.store {s t : State} : OnlyControl s t → t.store = s.store := by
  rintro ⟨_, _, rfl⟩; rfl

theorem boundary_seat (s : State) (b : Bool) (p : Presented) (n : Nat) : ∃ c a,
    (s.boundary b p n).seat = { (s.seated b p n).seat with capturing := c, accs := a } := by
  have hended (u : State) : u.beginSlice.linkBoundary.seat = { u.seat with
      capturing := decide (u.control.mode = some .run)
      accs := Vector.replicate 8 Accumulator.cleared } := rfl
  rw [boundary_eq, hended, State.selected, (endFree_onlyClock _ _).seat, (recompute_frame _).seat,
    State.controlled, (changeMode_onlyControl _ _).seat, State.adopted,
    (changeCondition_onlyControl _).seat, (adoptPending_onlyCharter _).seat]
  exact ⟨_, _, rfl⟩

/-- A charter that comes into force leaves the staged pages. -/
theorem adoptPending_staged (s : State) : s.adoptPending.store.capture = s.store.capture ∧
    s.adoptPending.store.drops = s.store.drops := by
  unfold State.adoptPending
  split
  · exact ⟨rfl, rfl⟩
  · next q _ =>
    by_cases hsame : q.charter.mirrorShare = s.control.charter.mirrorShare
    · obtain ⟨_, h⟩ := enforce_same (s := s) hsame
      rw [h]
      exact ⟨rfl, rfl⟩
    · obtain ⟨_, _, h⟩ := enforce_other (s := s) hsame
      rw [h]
      exact ⟨rfl, rfl⟩

theorem boundary_staged (s : State) (b : Bool) (p : Presented) (n : Nat) :
    (s.boundary b p n).store.capture = (s.seated b p n).store.capture ∧
    (s.boundary b p n).store.drops = (s.seated b p n).store.drops := by
  have hended (u : State) : u.beginSlice.linkBoundary.store = u.store := rfl
  rw [boundary_eq, hended, State.selected, (endFree_onlyClock _ _).store, (recompute_frame _).store,
    State.controlled, (changeMode_onlyControl _ _).store, State.adopted,
    (changeCondition_onlyControl _).store]
  exact adoptPending_staged _

/-- What seat capture has raised is still raised at the end of the boundary. -/
theorem seated_tells (s : State) (b : Bool) (p : Presented) (n : Nat) :
    Tells (s.seated b p n) (s.boundary b p n) :=
  ((controlBoundary_tells _ b).trans ((recompute_tells _).trans (endFree_tells _ _))).trans
    (.of_eq (boundary_raised s b p n))

end Sys2Proof.Machine
end


section
/-! SUPPORT. One lane's detector after a boundary (R74 to R81): what the evaluation, a change of fault state, a
change of the detect setting and a split leave it in. -/

namespace Sys2Proof.Machine

/-! ### One lane's work, step by step -/

/-- A split, when the boundary makes one. -/
def State.splitOnly (q : Option Split) (s : State) (l : Lane) : State :=
  match q with
  | none => s
  | some p => s.splitLane l p

/-- The evaluation of the block, or the change of fault state in its place (R77). -/
def State.judgedLane (s : State) (l : Lane) (b : Block) (c : FaultChange) : State :=
  if c = .none then s.evaluate l b else s.faultChange l c

theorem detectorLane_eq (s : State) (l : Lane) (b : Block) (c : FaultChange) (n : Option Charter)
    (q : Option Split) : s.detectorLane l b c n q =
      State.splitOnly q (State.detectOnly n (s.judgedLane l b c) l) l := by
  cases n <;> cases q <;> rfl

/-- The detector holds no span and is not hearing one begin. -/
def Detector.resting (d : Detector) : Prop := d = .disabled ∨ d = .quiet ∨ d = .faulted

theorem splitLane_of_resting {s : State} {l : Lane} (h : (look s.spans.detectors l).resting) (p : Split) :
    s.splitLane l p = s := by
  unfold State.splitLane
  obtain h | h | h := h <;> rw [h]

theorem splitOnly_of_resting {s : State} {l : Lane} (h : (look s.spans.detectors l).resting) (q : Option Split) :
    State.splitOnly q s l = s := by
  cases q with
  | none => rfl
  | some p => exact splitLane_of_resting h p

section Detector

variable {s : State} {l : Lane}

theorem setDetector_detector (s : State) (l : Lane) (d : Detector) :
    look (s.setDetector l d).spans.detectors l = d := by
  rw [setDetector_spans]
  exact (look_put _ _ _ _).trans (if_pos rfl)

/-! ### Opens and closes -/

theorem tryOpen_of_known {t : Slice} (c : Condition) (b : Bool) (u : Slice)
    (hknown : entryOf s.spans.table (s.ownKey l t) ≠ none) : s.tryOpen l t c b u = s.setDetector l .quiet := by
  rw [State.tryOpen, State.openRefused, if_pos (Option.isSome_iff_ne_none.mpr hknown)]

theorem tryOpen_of_new {t : Slice} (c : Condition) (b : Bool) (u : Slice)
    (hnew : entryOf s.spans.table (s.ownKey l t) = none) : s.tryOpen l t c b u =
      (s.openSpan l t c b).setDetector l (.active u (s.ownKey l t)) := by
  rw [State.tryOpen, State.openRefused, hnew, if_neg (by simp)]

theorem onsetAt_below {b : Block} {n : Nat} (t : Slice) (h : n < s.control.charter.nOnset) :
    s.onsetAt l b n t = s.setDetector l (.onset n t) :=
  if_neg (Nat.not_le.mpr h)

theorem onsetAt_reached (b : Block) {n : Nat} (t : Slice) (h : s.control.charter.nOnset ≤ n) :
    s.onsetAt l b n t = s.tryOpen l t b.condition false b.slice :=
  if_pos h

theorem hangAt_below {n : Nat} (t : Slice) (k : SpanKey) (h : n < s.control.charter.nHang) :
    s.hangAt l n t k = s.setDetector l (.hang n t k) :=
  if_neg (Nat.not_le.mpr h)

theorem hangAt_reached {n : Nat} (t : Slice) (k : SpanKey) (h : s.control.charter.nHang ≤ n) :
    s.hangAt l n t k = (s.closeOwn k t .silence).setDetector l .quiet :=
  if_pos h

/-! ### The evaluation (R75, R76) -/

theorem evaluate_of_off (b : Block)
    (h : look s.spans.detectors l = .disabled ∨ look s.spans.detectors l = .faulted) : s.evaluate l b = s := by
  unfold State.evaluate
  obtain h | h := h <;> rw [h]

theorem evaluate_of_quiet (b : Block) (h : look s.spans.detectors l = .quiet) : s.evaluate l b =
    if s.control.charter.tOpen ≤ b.level then s.onsetAt l b 1 b.slice else s := by
  unfold State.evaluate
  rw [h]

theorem evaluate_of_onset (b : Block) {n : Nat} {t : Slice} (h : look s.spans.detectors l = .onset n t) :
    s.evaluate l b = if s.control.charter.tOpen ≤ b.level then s.onsetAt l b (n + 1) t
      else s.setDetector l .quiet := by
  unfold State.evaluate
  rw [h]

theorem evaluate_of_active (b : Block) {t : Slice} {k : SpanKey} (h : look s.spans.detectors l = .active t k) :
    s.evaluate l b = if s.control.charter.tClose ≤ b.level then s.setDetector l (.active b.slice k)
      else s.hangAt l 1 t k := by
  unfold State.evaluate
  rw [h]

theorem evaluate_of_hang (b : Block) {n : Nat} {t : Slice} {k : SpanKey}
    (h : look s.spans.detectors l = .hang n t k) : s.evaluate l b =
      if s.control.charter.tClose ≤ b.level then s.setDetector l (.active b.slice k)
      else s.hangAt l (n + 1) t k := by
  unfold State.evaluate
  rw [h]

/-- An onset as the detector shows it. -/
theorem onsetAt_detector (b : Block) (n : Nat) (t : Slice) :
    (n < s.control.charter.nOnset → look (s.onsetAt l b n t).spans.detectors l = .onset n t) ∧
    (s.control.charter.nOnset ≤ n → entryOf s.spans.table (s.ownKey l t) = none →
      look (s.onsetAt l b n t).spans.detectors l = .active b.slice (s.ownKey l t)) := by
  refine ⟨fun h => ?_, fun h hnew => ?_⟩
  · rw [onsetAt_below t h, setDetector_detector]
  · rw [onsetAt_reached b t h, tryOpen_of_new _ _ _ hnew, setDetector_detector]

/-- A hang as the detector shows it. -/
theorem hangAt_detector (n : Nat) (t : Slice) (k : SpanKey) :
    (n < s.control.charter.nHang → look (s.hangAt l n t k).spans.detectors l = .hang n t k) ∧
    (s.control.charter.nHang ≤ n → look (s.hangAt l n t k).spans.detectors l = .quiet) := by
  refine ⟨fun h => ?_, fun h => ?_⟩
  · rw [hangAt_below t k h, setDetector_detector]
  · rw [hangAt_reached t k h, setDetector_detector]

/-! ### Fault states and detect settings (R77, R81) -/

theorem faultChange_entered (h : look s.spans.detectors l ≠ .disabled) :
    look (s.faultChange l .enteredFault).spans.detectors l = .faulted := by
  change look (if look s.spans.detectors l = .disabled then s
    else (s.closeHeld l .laneFault).setDetector l .faulted).spans.detectors l = _
  rw [if_neg h, setDetector_detector]

theorem faultChange_restored (h : look s.spans.detectors l = .faulted) :
    look (s.faultChange l .restored).spans.detectors l = .quiet := by
  change look (if look s.spans.detectors l = .faulted then s.setDetector l .quiet else s).spans.detectors l = _
  rw [if_pos h, setDetector_detector]

theorem detectChange_off (c : Charter)
    (hwas : (s.control.charter.seat (roomSeat s.control.id l)).detect = true)
    (his : (c.seat (roomSeat s.control.id l)).detect = false) :
    look (s.detectChange l c).spans.detectors l = .disabled := by
  unfold State.detectChange
  dsimp only
  rw [if_pos ⟨hwas, his⟩, setDetector_detector]

theorem detectChange_on (c : Charter)
    (hwas : (s.control.charter.seat (roomSeat s.control.id l)).detect = false)
    (his : (c.seat (roomSeat s.control.id l)).detect = true) :
    look (s.detectChange l c).spans.detectors l =
      if (look s.seat.faults l).faulted then .faulted else .quiet := by
  unfold State.detectChange
  dsimp only
  rw [if_neg (by rw [hwas]; exact nofun), if_pos ⟨hwas, his⟩, setDetector_detector]

end Detector

/-! ### The lane's place among the others -/

/-- A fold over lanes without repeats acts on one lane's detector once. -/
theorem foldl_lane {f : State → Lane → State} {lanes : List Lane} (hnodup : lanes.Nodup) {l : Lane}
    (hl : l ∈ lanes) (step : ∀ j ≠ l, ∀ s, Elsewhere l s (f s j)) (frame : ∀ s j, OnlySpans s (f s j))
    (s : State) : ∃ w, Elsewhere l s w ∧ OnlySpans s w ∧
      look (lanes.foldl f s).spans.detectors l = look (f w l).spans.detectors l := by
  obtain ⟨before, after, rfl⟩ := List.append_of_mem hl
  obtain ⟨-, hafter, hdisjoint⟩ := List.nodup_append'.mp hnodup
  have hfree : l ∉ after := (List.nodup_cons.mp hafter).1
  refine ⟨before.foldl f s, foldl_elsewhere (fun j hj => step j fun h => ?_) s,
    foldl_frame OnlySpans.refl OnlySpans.trans f frame _ _, ?_⟩
  · exact hdisjoint (h ▸ hj) List.mem_cons_self
  · rw [List.foldl_append, List.foldl_cons]
    exact (foldl_elsewhere (fun j hj => step j fun h => hfree (h ▸ hj)) _).1

theorem OnlySpans.seat {s t : State} : OnlySpans s t → t.seat = s.seat := by rintro ⟨_, _, rfl⟩; rfl
theorem OnlySpans.store {s t : State} : OnlySpans s t → t.store = s.store := by rintro ⟨_, _, rfl⟩; rfl
theorem OnlyStore.seat {s t : State} : OnlyStore s t → t.seat = s.seat := by rintro ⟨_, _, rfl⟩; rfl
theorem OnlyStore.spans {s t : State} : OnlyStore s t → t.spans = s.spans := by rintro ⟨_, _, rfl⟩; rfl
theorem OnlyFaults.control {s t : State} : OnlyFaults s t → t.control = s.control := by rintro ⟨_, _, rfl⟩; rfl
theorem OnlyFaults.spans {s t : State} : OnlyFaults s t → t.spans = s.spans := by rintro ⟨_, _, rfl⟩; rfl
theorem OnlyFaults.store {s t : State} : OnlyFaults s t → t.store = s.store := by rintro ⟨_, _, rfl⟩; rfl
theorem OnlyFaults.clock {s t : State} : OnlyFaults s t → t.clock = s.clock := by rintro ⟨_, _, rfl⟩; rfl

/-- The lanes' fault states after a boundary that ends a captured slice. -/
theorem boundary_faults {s : State} (b : Bool) (p : Presented) (n : Nat)
    (hcapturing : s.seat.capturing = true) :
    (s.boundary b p n).seat.faults = ((s.unsettled b p n).faulted p).seat.faults := by
  obtain ⟨_, _, hseat⟩ := boundary_seat s b p n
  rw [hseat, seated_captured b p n hcapturing, (stageCapture_frame _ _).seat, (heard_onlySpans _ _ _ _ _).seat]

/-- A lane's detector after a boundary that ends a captured slice. -/
theorem boundary_detector {s : State} {l : Lane} (b : Bool) (p : Presented) (n : Nat)
    (hcapturing : s.seat.capturing = true) (hl : l.val < s.seat.laneCount) :
    ∃ w, Elsewhere l s w ∧ w.control = s.control ∧ w.seat.faults = (s.boundary b p n).seat.faults ∧
      look (s.boundary b p n).spans.detectors l = look (w.detectorLane l (s.blockOf p l) (s.faultOf p l).2.1
        s.newCharter (s.splitAt b p.stepped p.ended p.next)).spans.detectors l := by
  obtain ⟨-, -, hcontrol, -, hspans⟩ := unsettled_fields s b p n
  have hfaulted := faulted_onlyFaults (s.unsettled b p n) p
  obtain ⟨w, hw, hframe, hlane⟩ := foldl_lane
    (f := fun t l => t.detectorLane l (s.blockOf p l) (s.faultOf p l).2.1 s.newCharter
      (s.splitAt b p.stepped p.ended p.next)) (presentLanes_nodup s) (mem_presentLanes.mpr hl)
    (fun j hj t => detectorLane_elsewhere t hj _ _ _ _) (fun t j => detectorLane_frame t j _ _ _ _)
    ((s.unsettled b p n).faulted p)
  refine ⟨w, ?_, ?_, ?_, ?_⟩
  · exact .trans (reported_elsewhere l s b p n) (.trans (.of_spans (hfaulted.spans.trans hspans)) hw)
  · rw [hframe.control, hfaulted.control, hcontrol]
  · rw [hframe.seat, boundary_faults b p n hcapturing]
  · rw [boundary_spans, seated_captured b p n hcapturing, (stageCapture_frame _ _).spans]
    exact hlane

/-- A lane's detector after a boundary that ends a slice that was not captured. -/
theorem boundary_detector_uncaptured {s : State} {l : Lane} (b : Bool) (p : Presented) (n : Nat)
    (hcapturing : s.seat.capturing = false) (hl : l.val < s.seat.laneCount) :
    ∃ w, Elsewhere l s w ∧ w.control = s.control ∧ w.seat.faults = (s.boundary b p n).seat.faults ∧
      look (s.boundary b p n).spans.detectors l = look (State.detectOnly s.newCharter w l).spans.detectors l := by
  obtain ⟨⟨x, hseat⟩, -, hcontrol, -, hspans⟩ := unsettled_fields s b p n
  obtain ⟨w, hw, hframe, hlane⟩ := foldl_lane (f := State.detectOnly s.newCharter) (presentLanes_nodup s)
    (mem_presentLanes.mpr hl) (fun j hj t => detectOnly_elsewhere t hj _) (fun t j => detectOnly_frame _ t j)
    (s.unsettled b p n)
  have hseated : s.seated b p n = s.presentLanes.foldl (State.detectOnly s.newCharter) (s.unsettled b p n) := by
    have huncaptured : (s.reported b p n).settleUnsent.seat.capturing = false := by
      rw [← State.unsettled, hseat]
      exact hcapturing
    rw [State.seated, State.seatBoundary, huncaptured, if_neg (by decide), ← State.unsettled,
      (unsettled_lanes s b p n).1, (unsettled_lanes s b p n).2]
  have hall : OnlySpans (s.unsettled b p n)
      (s.presentLanes.foldl (State.detectOnly s.newCharter) (s.unsettled b p n)) :=
    foldl_frame OnlySpans.refl OnlySpans.trans _ (fun t j => detectOnly_frame _ t j) _ _
  obtain ⟨_, _, hseat'⟩ := boundary_seat s b p n
  refine ⟨w, ?_, ?_, ?_, ?_⟩
  · exact .trans (reported_elsewhere l s b p n) (.trans (.of_spans hspans) hw)
  · rw [hframe.control, hcontrol]
  · rw [hseat', hframe.seat, hseated, hall.seat]
  · rw [boundary_spans, hseated]
    exact hlane

end Sys2Proof.Machine
end


section
/-! SUPPORT. What a captured slice yields (R23 to R29): its page, the fault states and the detectors, lane by
lane, as O11 states them. -/

namespace Sys2Proof.Machine

/-! ### The boundary commands -/

/-- The boundary command that fits the step plan ends the slice in progress with its marking (R3, R14). -/
theorem exec_boundary_marked (b stepped : Bool) {s : State} (hreset : s.resetN = true)
    (hmark : stepped = true ↔ s.clock.plan ≠ none) : ∃ p n, p.ended = s.clock.index ∧ p.stepped = stepped ∧
      p.unlocked = decide (s.clock.discipline ≠ .locked) ∧
      exec (if stepped then .stepBoundary b else .sliceBoundary b) s = .next (s.boundary b p n).finish := by
  cases stepped with
  | false =>
    have hplan : s.clock.plan = none := Classical.byContradiction fun h => nomatch hmark.mpr h
    exact ⟨s.ordinary, _, rfl, rfl, rfl, exec_sliceBoundary b s hreset hplan⟩
  | true =>
    obtain ⟨q, hplan⟩ := Option.ne_none_iff_exists'.mp (hmark.mp rfl)
    exact ⟨s.stepTo q, _, rfl, rfl, rfl, exec_stepBoundary b hreset hplan⟩

/-! ### The slice page -/

/-- The page as it leaves the wait for its outcome UNSENT (R31). -/
def OwnPage.unsent (p : OwnPage) : OwnPage := if p.outcome = .awaiting then { p with outcome := .unsent } else p

theorem OwnPage.unsent_slice (p : OwnPage) : p.unsent.slice = p.slice := by
  unfold OwnPage.unsent
  split <;> rfl

section Page

variable {s : State} (b : Bool) (p : Presented) (n : Nat) (hcapturing : s.seat.capturing = true)

theorem heard_store (s : State) (b : Bool) (p : Presented) (n : Nat) (q : Option Split) (lanes : List Lane) :
    (s.heard p q lanes ((s.unsettled b p n).faulted p)).store =
      { s.store with capture := settledAs .unsent s.store.capture } := by
  obtain ⟨-, hstore, -, -, -⟩ := unsettled_fields s b p n
  rw [(heard_onlySpans _ _ _ _ _).store, (faulted_onlyFaults _ _).store, hstore]

theorem heard_index (s : State) (b : Bool) (p : Presented) (n : Nat) (q : Option Split) (lanes : List Lane) :
    (s.heard p q lanes ((s.unsettled b p n).faulted p)).clock.index = p.next := by
  rw [(heard_onlySpans _ _ _ _ _).clock, (faulted_onlyFaults _ _).clock, unsettled_index]

include hcapturing

/-- The page of the ended slice is staged alone. -/
theorem boundary_capture_of_empty (hempty : s.store.capture = []) :
    (s.boundary b p n).store.capture = [s.pageOf p] := by
  have hstore := heard_store s b p n (s.splitAt b p.stepped p.ended p.next) s.presentLanes
  rw [hempty] at hstore
  rw [(boundary_staged s b p n).1, seated_captured b p n hcapturing,
    stageCapture_of_room _ (by rw [hstore]; exact Nat.zero_lt_two),
    withStore_store, hstore]
  rfl

/-- The page of the ended slice displaces the oldest whose write has not begun (R136). -/
theorem boundary_capture_of_full {x y : OwnPage} (hfull : s.store.capture = [x, y]) :
    let dropped := if s.store.captureWrite = none then x else y
    let kept := if s.store.captureWrite = none then y else x
    (s.boundary b p n).store.capture =
      [if kept.outcome = .awaiting then { kept with outcome := .unsent } else kept, s.pageOf p] ∧
    (s.boundary b p n).store.drops = s.store.drops + 1 ∧
    ({ raiser := .store
       notice := { kind := .stagingOverflow, slice := p.next, subject := 0
                   detail := sliceDetail dropped.slice } } : Raised) ∈ (s.boundary b p n).raised := by
  have hstore := heard_store s b p n (s.splitAt b p.stepped p.ended p.next) s.presentLanes
  have hindex := heard_index s b p n (s.splitAt b p.stepped p.ended p.next) s.presentLanes
  have htells := seated_tells s b p n
  obtain ⟨hcapture, hdrops⟩ := boundary_staged s b p n
  have hseated := seated_captured b p n hcapturing
  generalize s.heard p (s.splitAt b p.stepped p.ended p.next) s.presentLanes
    ((s.unsettled b p n).faulted p) = u at hstore hindex hseated
  have hpages : u.store.capture = [x.unsent, y.unsent] := by
    rw [hstore, hfull]
    rfl
  have hwrite : u.store.captureWrite = s.store.captureWrite := by rw [hstore]
  have hcount : u.store.drops = s.store.drops := by rw [hstore]
  rw [stageCapture_of_full (s.pageOf p) hpages, hwrite, hcount] at hseated
  intro dropped kept
  rw [hcapture, hdrops, hseated]
  refine ⟨?_, rfl, htells.mem ?_⟩
  · change [_, _] = [kept.unsent, _]
    dsimp only [kept]
    split <;> rfl
  · rw [hseated]
    refine List.mem_append_right _ (List.mem_singleton.mpr ?_)
    have hdropped : dropped.slice = (if s.store.captureWrite = none then x.unsent else y.unsent).slice := by
      dsimp only [dropped]
      split <;> rw [OwnPage.unsent_slice]
    rw [hdropped, ← hindex]
    rfl

end Page

end Sys2Proof.Machine
end


section
/-! SUPPORT. A station of one lane at a boundary (R74 to R85): what opens, closes and splits make of the table,
the outbox and the detector, with room in both. -/

namespace Sys2Proof.Machine

/-! ### What splits the spans (R78) -/

section SplitAt

variable {s : State} (hrun : s.control.mode = some .run) (b stepped : Bool) (ended next : Slice)

/-- A split for a cause, with the condition in force for the slice that begins. -/
def State.splitFor (s : State) (cause : CloseCause) (ended next : Slice) : Split :=
  { cause := cause, ended := ended, next := next
    condition := s.control.pendingCondition.getD s.control.condition }

include hrun

theorem splitAt_stopped (hstops : s.control.pendingStop ≠ none ∨ b = false) :
    s.splitAt b stepped ended next = some (s.splitFor .stopped ended next) := by
  unfold State.splitAt
  dsimp only
  rw [if_neg (not_not_intro hrun), if_pos (hstops.imp_left Option.isSome_iff_ne_none.mpr)]
  rfl

theorem splitAt_of_going (hgoes : ¬ (s.control.pendingStop ≠ none ∨ b = false)) :
    s.splitAt b stepped ended next =
      if stepped = true then some (s.splitFor .realigned ended next)
      else if s.control.pendingCondition.getD s.control.condition ≠ s.control.condition then
        some (s.splitFor .condition ended next)
      else none := by
  unfold State.splitAt
  dsimp only
  rw [if_neg (not_not_intro hrun), if_neg fun h => hgoes (h.imp_left Option.isSome_iff_ne_none.mp)]
  rfl

theorem splitAt_changed (hordinary : stepped = false) (hgoes : ¬ (s.control.pendingStop ≠ none ∨ b = false))
    (hchanged : ∃ c, s.control.pendingCondition = some c ∧ c ≠ s.control.condition) :
    s.splitAt b stepped ended next = some (s.splitFor .condition ended next) := by
  obtain ⟨c, hpending, hother⟩ := hchanged
  rw [splitAt_of_going hrun b stepped ended next hgoes, if_neg (by rw [hordinary]; exact nofun), hpending]
  exact if_pos hother

theorem splitAt_unchanged (hordinary : stepped = false) (hgoes : ¬ (s.control.pendingStop ≠ none ∨ b = false))
    (hsame : ¬ ∃ c, s.control.pendingCondition = some c ∧ c ≠ s.control.condition) :
    s.splitAt b stepped ended next = none := by
  rw [splitAt_of_going hrun b stepped ended next hgoes, if_neg (by rw [hordinary]; exact nofun), if_neg]
  cases hpending : s.control.pendingCondition with
  | none => exact not_not_intro rfl
  | some c => exact fun hother => hsame ⟨c, hpending, hother⟩

end SplitAt

/-! ### Opens and closes with room -/

theorem entryOf_map_eq_none {table : List SpanEntry} {g : SpanEntry → SpanEntry} (hkey : ∀ x, (g x).key = x.key)
    {k : SpanKey} : entryOf (table.map g) k = none ↔ entryOf table k = none := by
  simp only [entryOf_eq_none, List.mem_map, forall_exists_index, and_imp, forall_apply_eq_imp_iff₂, hkey]

/-- The table with the entry of a key closed by this station. -/
def State.closedTable (s : State) (k : SpanKey) (u : Slice) (cause : CloseCause) : List SpanEntry :=
  s.spans.table.map fun x => if x.key = k then x.close u cause s.control.id else x

theorem closedTable_none {s : State} {k j : SpanKey} {u : Slice} {cause : CloseCause} :
    entryOf (s.closedTable k u cause) j = none ↔ entryOf s.spans.table j = none :=
  entryOf_map_eq_none fun x => by split <;> rfl

theorem closedTable_length (s : State) (k : SpanKey) (u : Slice) (cause : CloseCause) :
    (s.closedTable k u cause).length = s.spans.table.length := List.length_map _

section Room

variable {s : State} (hkeys : s.spans.table.Pairwise fun a b => a.key ≠ b.key)

include hkeys in
/-- The entry of a key is the only one with it. -/
theorem updateEntry_entry {k : SpanKey} {e : SpanEntry} (he : entryOf s.spans.table k = some e) (u : Slice)
    (cause : CloseCause) : updateEntry s.spans.table k (fun _ => e.close u cause s.control.id) =
      s.closedTable k u cause := by
  refine List.map_congr_left fun x hx => ?_
  split
  · next hxk =>
    have hmem : e ∈ s.spans.table := List.mem_of_find?_eq_some he
    have hsymm : Std.Symm fun a b : SpanEntry => a.key ≠ b.key := ⟨fun _ _ h => Ne.symm h⟩
    have hsame : x = e := Classical.byContradiction fun hne =>
      hkeys.forall hx hmem hne (hxk.trans (entryOf_key he).symm)
    rw [hsame]
  · rfl

/-- An own close with room in the outbox (R85, R88). -/
theorem closeOwn_of_room {k : SpanKey} {e : SpanEntry} (he : entryOf s.spans.table k = some e)
    (hroom : s.spans.outbox.length < 64) (u : Slice) (cause : CloseCause) :
    s.closeOwn k u cause = s.withSpans { s.spans with
      table := updateEntry s.spans.table k fun _ => e.close u cause s.control.id
      outbox := s.spans.outbox ++ [(e.close u cause s.control.id).item] } := by
  unfold State.closeOwn
  rw [he]
  exact announce_of_room _ hroom

/-- An own open with room in the table and in the outbox (R83, R88). -/
theorem openSpan_of_room (htable : s.spans.table.length < 160) (houtbox : s.spans.outbox.length < 64) (l : Lane)
    (t : Slice) (c : Condition) (b : Bool) : s.openSpan l t c b = s.withSpans { s.spans with
      table := s.spans.table ++ [s.newEntry l t c b]
      outbox := s.spans.outbox ++ [(s.newEntry l t c b).item] } := by
  unfold State.openSpan
  dsimp only
  rw [insertEntry_of_room htable]
  exact announce_of_room _ houtbox

end Room

/-! ### The link key of a new span (R83) -/

theorem linkFor_of_none {s : State} {l : Lane} (c : Condition)
    (hlink : (s.control.charter.seat (roomSeat s.control.id l)).link = none) : s.linkFor l c = none := by
  rw [State.linkFor, hlink]

/-- The linked seat's first OPEN entry under the same condition is linked to. -/
theorem linkFor_of_first {s : State} {l : Lane} {c : Condition} {m : Fin 128} {x : SpanEntry}
    {more rest : List SpanEntry} (hlink : (s.control.charter.seat (roomSeat s.control.id l)).link = some m)
    (htable : s.spans.table = more ++ x :: rest) (hopen : x.status = .opened) (hseat : seatOf x.key = m.val)
    (hcondition : x.condition = c)
    (hfirst : ∀ y ∈ more, ¬ (y.status = .opened ∧ seatOf y.key = m.val ∧ y.condition = c)) :
    s.linkFor l c = some { owner := byte x.key.owner.val, lane := byte x.key.lane.val
                           openSlice := x.key.openSlice } := by
  have hnone : (more.find? fun e => decide (e.status = .opened ∧ seatOf e.key = m.val ∧ e.condition = c)) =
      none := List.find?_eq_none.mpr fun y hy => by simpa using hfirst y hy
  rw [State.linkFor, hlink]
  dsimp only
  rw [htable, List.find?_append, hnone, Option.none_or, List.find?_cons_of_pos]
  exact decide_eq_true ⟨hopen, hseat, hcondition⟩

/-! ### One lane's work with room -/

/-- The lane's span of a key is closed and announced, and the detector rests. -/
def State.Announced (s : State) (l : Lane) (x : Spans) (k : SpanKey) (u : Slice) (cause : CloseCause)
    (e : SpanEntry) : Prop :=
  x.table = s.closedTable k u cause ∧ x.outbox = s.spans.outbox ++ [(e.close u cause s.control.id).item] ∧
    look x.detectors l = .quiet

section Lane

variable {s : State} {l : Lane} (b : Block) (q : Option Split)

theorem detectorLane_plain (s : State) (l : Lane) (b : Block) (q : Option Split) :
    s.detectorLane l b .none none q = State.splitOnly q (s.evaluate l b) l := by
  rw [detectorLane_eq]
  rfl

section Opening

variable {n : Nat} {u : Slice} (honset : look s.spans.detectors l = .onset n u)
  (hloud : s.control.charter.tOpen ≤ b.level) (hcount : s.control.charter.nOnset ≤ n + 1)

include honset hloud hcount

theorem detectorLane_open : s.detectorLane l b .none none q =
    State.splitOnly q (s.tryOpen l u b.condition false b.slice) l := by
  rw [detectorLane_plain, evaluate_of_onset b honset, if_pos hloud, onsetAt_reached b u hcount]

/-- R75: the span opens, when no split follows. -/
theorem detectorLane_opens (htable : s.spans.table.length < 160) (houtbox : s.spans.outbox.length < 64)
    (hnew : entryOf s.spans.table (s.ownKey l u) = none) :
    (s.detectorLane l b .none none none).spans.table =
      s.spans.table ++ [s.newEntry l u b.condition false] ∧
    (s.detectorLane l b .none none none).spans.outbox =
      s.spans.outbox ++ [(s.newEntry l u b.condition false).item] := by
  rw [detectorLane_open b none honset hloud hcount, tryOpen_of_new _ _ _ hnew, openSpan_of_room htable houtbox]
  exact ⟨rfl, rfl⟩

/-- R84: the key is in the table already. -/
theorem detectorLane_refused (hknown : entryOf s.spans.table (s.ownKey l u) ≠ none) :
    (s.detectorLane l b .none none q).spans.table = s.spans.table ∧
    (s.detectorLane l b .none none q).spans.outbox = s.spans.outbox ∧
    look (s.detectorLane l b .none none q).spans.detectors l = .quiet := by
  have hquiet := setDetector_detector s l .quiet
  rw [detectorLane_open b q honset hloud hcount, tryOpen_of_known _ _ _ hknown,
    splitOnly_of_resting (.inr (.inl hquiet))]
  exact ⟨rfl, rfl, hquiet⟩

end Opening

section Closing

variable (hkeys : s.spans.table.Pairwise fun a b => a.key ≠ b.key) (houtbox : s.spans.outbox.length < 63)
  {k : SpanKey} {e : SpanEntry} (he : entryOf s.spans.table k = some e) {last : Slice}

include hkeys houtbox he

/-- A close after which the detector rests. -/
theorem closeOwn_announced (u : Slice) (cause : CloseCause) :
    s.Announced l ((s.closeOwn k u cause).setDetector l .quiet).spans k u cause e := by
  refine ⟨?_, ?_, setDetector_detector _ _ _⟩
  · rw [closeOwn_of_room he (by omega), ← updateEntry_entry hkeys he u cause]
    rfl
  · rw [closeOwn_of_room he (by omega)]
    rfl

/-- R76: the hang ends in silence. -/
theorem detectorLane_silence {n : Nat} (hhang : look s.spans.detectors l = .hang n last k)
    (hquiet : b.level < s.control.charter.tClose) (hcount : s.control.charter.nHang ≤ n + 1) :
    s.Announced l (s.detectorLane l b .none none q).spans k last .silence e := by
  rw [detectorLane_plain, evaluate_of_hang b hhang, if_neg (Nat.not_le.mpr hquiet), hangAt_reached last k hcount,
    splitOnly_of_resting (.inr (.inl (setDetector_detector _ _ _)))]
  exact closeOwn_announced hkeys houtbox he last .silence

/-- R80: a split closes a span in its hang. -/
theorem detectorLane_split_hang {n : Nat} (hhang : look s.spans.detectors l = .hang n last k)
    (hquiet : b.level < s.control.charter.tClose) (hcount : n + 1 < s.control.charter.nHang) (p : Split) :
    s.Announced l (s.detectorLane l b .none none (some p)).spans k last p.cause e := by
  have hstill := setDetector_detector s l (.hang (n + 1) last k)
  have hsplit : State.splitLane (s.setDetector l (.hang (n + 1) last k)) l p =
      ((s.setDetector l (.hang (n + 1) last k)).closeOwn k last p.cause).setDetector l .quiet := by
    unfold State.splitLane
    rw [hstill]
  rw [detectorLane_plain, evaluate_of_hang b hhang, if_neg (Nat.not_le.mpr hquiet), hangAt_below last k hcount]
  change s.Announced l (State.splitLane _ l p).spans k last p.cause e
  rw [hsplit]
  exact closeOwn_announced (s := s.setDetector l (.hang (n + 1) last k)) hkeys houtbox he last p.cause

variable (hactive : look s.spans.detectors l = .active last k) (hloud : s.control.charter.tClose ≤ b.level)

include hactive hloud

omit hkeys houtbox he in
theorem detectorLane_active (p : Split) : s.detectorLane l b .none none (some p) =
    if p.cause = .stopped then
      ((s.setDetector l (.active b.slice k)).closeOwn k p.ended p.cause).setDetector l .quiet
    else
      ((s.setDetector l (.active b.slice k)).closeOwn k p.ended p.cause).tryOpen l p.next p.condition true
        p.next := by
  have hstill := setDetector_detector s l (.active b.slice k)
  rw [detectorLane_plain, evaluate_of_active b hactive, if_pos hloud]
  change State.splitLane _ l p = _
  unfold State.splitLane
  rw [hstill]

/-- R79: STOPPED closes the span. -/
theorem detectorLane_stopped {p : Split} (hcause : p.cause = .stopped) :
    s.Announced l (s.detectorLane l b .none none (some p)).spans k p.ended p.cause e := by
  rw [detectorLane_active b hactive hloud p, if_pos hcause]
  exact closeOwn_announced (s := s.setDetector l (.active b.slice k)) hkeys houtbox he p.ended p.cause

/-- R79, R84: another split closes the span and cannot open the next. -/
theorem detectorLane_split_known {p : Split} (hcause : p.cause ≠ .stopped)
    (hknown : entryOf s.spans.table (s.ownKey l p.next) ≠ none) :
    s.Announced l (s.detectorLane l b .none none (some p)).spans k p.ended p.cause e := by
  have hannounced := closeOwn_announced (s := s.setDetector l (.active b.slice k)) (l := l) hkeys houtbox he
    p.ended p.cause
  have hcontrol := (closeOwn_frame (s.setDetector l (.active b.slice k)) k p.ended p.cause).control
  rw [detectorLane_active b hactive hloud p, if_neg hcause, tryOpen_of_known]
  · exact hannounced
  · have htable : ((s.setDetector l (.active b.slice k)).closeOwn k p.ended p.cause).spans.table =
        s.closedTable k p.ended p.cause := hannounced.1
    rw [htable, State.ownKey, hcontrol]
    exact mt closedTable_none.mp hknown

/-- R79: another split closes the span and opens its continuation. -/
theorem detectorLane_split_new (hroom : s.spans.table.length < 160) {p : Split} (hcause : p.cause ≠ .stopped)
    (hnew : entryOf s.spans.table (s.ownKey l p.next) = none) : ∃ f : SpanEntry,
    (s.detectorLane l b .none none (some p)).spans.table = s.closedTable k p.ended p.cause ++ [f] ∧
    (s.detectorLane l b .none none (some p)).spans.outbox =
      s.spans.outbox ++ [(e.close p.ended p.cause s.control.id).item, f.item] ∧
    look (s.detectorLane l b .none none (some p)).spans.detectors l = .active p.next f.key ∧
    f.key = s.ownKey l p.next ∧ f.status = .opened ∧ f.continued = true ∧ f.condition = p.condition ∧
    f.role = (s.control.charter.seat (roomSeat s.control.id l)).role ∧ f.announcedBy = s.control.id ∧
    f.time = s.clock.timeOfDay p.next := by
  obtain ⟨htable, houtbox', -⟩ := closeOwn_announced (s := s.setDetector l (.active b.slice k)) (l := l) hkeys
    houtbox he p.ended p.cause
  have hframe := closeOwn_frame (s.setDetector l (.active b.slice k)) k p.ended p.cause
  have hcontrol := hframe.control
  have hclock := hframe.clock
  rw [detectorLane_active b hactive hloud p, if_neg hcause]
  generalize (s.setDetector l (.active b.slice k)).closeOwn k p.ended p.cause = w at *
  have hwtable : w.spans.table = s.closedTable k p.ended p.cause := htable
  have hwoutbox : w.spans.outbox = s.spans.outbox ++ [(e.close p.ended p.cause s.control.id).item] := houtbox'
  have hwkey : w.ownKey l p.next = s.ownKey l p.next := by
    rw [State.ownKey, hcontrol]
    rfl
  rw [tryOpen_of_new _ _ _ (by rw [hwtable, hwkey]; exact closedTable_none.mpr hnew), openSpan_of_room]
  · refine ⟨w.newEntry l p.next p.condition true, ?_, ?_, setDetector_detector _ _ _, hwkey, rfl, rfl,
      rfl, ?_, ?_, ?_⟩
    · rw [← hwtable]
      rfl
    · change w.spans.outbox ++ _ = _
      rw [hwoutbox, List.append_assoc]
      rfl
    · simp only [State.newEntry, hcontrol, setDetector_control]
    · simp only [State.newEntry, hcontrol, setDetector_control]
    · simp only [State.newEntry, hclock, setDetector_clock]
  · rw [hwtable, closedTable_length]
    exact hroom
  · rw [hwoutbox, List.length_append, List.length_singleton]
    omega

end Closing

end Lane

end Sys2Proof.Machine
end


section
/-! PROOF. O11: what a captured slice yields (R23 to R33, R74 to R85, R134, R136). -/

namespace Sys2Proof.Machine

/-! ### A station of one lane -/

/-- The spans of a station of one lane after a boundary with no charter pending, no orphan and no loss: one lane's
work on the spans as they were. -/
theorem boundary_spans_alone {s : State} (b : Bool) (p : Presented) (n : Nat) (hcapturing : s.seat.capturing = true)
    (hlanes : s.seat.laneCount = 1) (hcharter : s.control.pendingCharter = none)
    (horphans : ∀ x ∈ s.spans.table, ∀ n u, x.status ≠ .orphaned n u)
    (hheard : ∀ k, k ≠ s.control.id → (look s.roster.entries k).state = .present →
      (look s.roster.entries k).silence < s.control.charter.lossSlices) :
    ∃ w : State, w.spans = s.spans ∧ w.control = s.control ∧ w.clock.mark = s.clock.mark ∧
      (s.boundary b p n).spans = (w.detectorLane 0 (s.blockOf p 0) (s.faultOf p 0).2.1 none
        (s.splitAt b p.stepped p.ended p.next)).spans := by
  obtain ⟨-, -, hcontrol, hclock, hspans⟩ := unsettled_fields s b p n
  have hfaulted := faulted_onlyFaults (s.unsettled b p n) p
  have hpresent : s.presentLanes = [0] := by
    rw [State.presentLanes, hlanes]
    decide
  have hnew : s.newCharter = none := by rw [State.newCharter, hcharter]
  have hreported : (s.reported b p n).spans = s.spans := by
    have haged : s.spans.table.map ageOrphan = s.spans.table :=
      (List.map_congr_left fun x hx => ageOrphan_of_other (horphans x hx)).trans (List.map_id _)
    have hkept : s.spans.table.map (timeOut s.control.charter.orphanSlices s.control.id) = s.spans.table :=
      (List.map_congr_left fun x hx => timeOut_of_other _ _ (horphans x hx)).trans (List.map_id _)
    rw [reported_of_heard b p n hheard]
    obtain ⟨_, _, hturned⟩ := clockBoundary_onlyClock { s with stopN := b } p n
    rw [hturned]
    simp only [State.ageOrphans, State.timeOutOrphans, State.ageEntries, withSpans_spans, withRoster_spans,
      withSpans_control, haged, hkept]
  have hmark : (s.unsettled b p n).clock.mark = s.clock.mark := by
    obtain ⟨_, _, _, _, _, h⟩ := clockBoundary_sameTime { s with stopN := b } p n
    rw [hclock, h]
    rfl
  refine ⟨(s.unsettled b p n).faulted p, ?_, ?_, ?_, ?_⟩
  · rw [hfaulted.spans, hspans, hreported]
  · rw [hfaulted.control, hcontrol]
  · rw [hfaulted.clock, hmark]
  · rw [boundary_spans, seated_captured b p n hcapturing, (stageCapture_frame _ _).spans, hpresent, ← hnew]
    rfl

/-! ### The detector after its evaluation (R75, R76) -/

section Evaluation

variable {s : State} {l : Lane} (b : Block)

theorem evaluate_from_quiet (h : look s.spans.detectors l = .quiet) :
    (b.level < s.control.charter.tOpen → look (s.evaluate l b).spans.detectors l = .quiet) ∧
    (s.control.charter.tOpen ≤ b.level → 1 < s.control.charter.nOnset →
      look (s.evaluate l b).spans.detectors l = .onset 1 b.slice) ∧
    (s.control.charter.tOpen ≤ b.level → s.control.charter.nOnset ≤ 1 →
      entryOf s.spans.table (s.ownKey l b.slice) = none →
      look (s.evaluate l b).spans.detectors l = .active b.slice (s.ownKey l b.slice)) := by
  obtain ⟨hbelow, hreached⟩ := onsetAt_detector (s := s) (l := l) b 1 b.slice
  rw [evaluate_of_quiet b h]
  refine ⟨fun hlow => ?_, fun hloud => ?_, fun hloud => ?_⟩
  · rw [if_neg (Nat.not_le.mpr hlow)]
    exact h
  · rw [if_pos hloud]
    exact hbelow
  · rw [if_pos hloud]
    exact hreached

theorem evaluate_from_onset {n : Nat} {u : Slice} (h : look s.spans.detectors l = .onset n u) :
    (b.level < s.control.charter.tOpen → look (s.evaluate l b).spans.detectors l = .quiet) ∧
    (s.control.charter.tOpen ≤ b.level → n + 1 < s.control.charter.nOnset →
      look (s.evaluate l b).spans.detectors l = .onset (n + 1) u) ∧
    (s.control.charter.tOpen ≤ b.level → s.control.charter.nOnset ≤ n + 1 →
      entryOf s.spans.table (s.ownKey l u) = none →
      look (s.evaluate l b).spans.detectors l = .active b.slice (s.ownKey l u)) := by
  obtain ⟨hbelow, hreached⟩ := onsetAt_detector (s := s) (l := l) b (n + 1) u
  rw [evaluate_of_onset b h]
  refine ⟨fun hlow => ?_, fun hloud => ?_, fun hloud => ?_⟩
  · rw [if_neg (Nat.not_le.mpr hlow)]
    exact setDetector_detector _ _ _
  · rw [if_pos hloud]
    exact hbelow
  · rw [if_pos hloud]
    exact hreached

/-- A quiet block in a span counts into the hang. -/
theorem evaluate_from_span {x : State} {k : SpanKey} {n : Nat} {last : Slice}
    (h : s.evaluate l b = if s.control.charter.tClose ≤ b.level then s.setDetector l (.active b.slice k)
      else s.hangAt l n last k) (hx : s.evaluate l b = x) :
    (s.control.charter.tClose ≤ b.level → look x.spans.detectors l = .active b.slice k) ∧
    (b.level < s.control.charter.tClose → n < s.control.charter.nHang →
      look x.spans.detectors l = .hang n last k) ∧
    (b.level < s.control.charter.tClose → s.control.charter.nHang ≤ n → look x.spans.detectors l = .quiet) := by
  obtain ⟨hbelow, hreached⟩ := hangAt_detector (s := s) (l := l) n last k
  rw [← hx, h]
  refine ⟨fun hloud => ?_, fun hlow => ?_, fun hlow => ?_⟩
  · rw [if_pos hloud]
    exact setDetector_detector _ _ _
  · rw [if_neg (Nat.not_le.mpr hlow)]
    exact hbelow
  · rw [if_neg (Nat.not_le.mpr hlow)]
    exact hreached

end Evaluation

/-! ### Changes of fault state and of the detect setting at a boundary (R33, R77, R81) -/

section Changes

variable {s : State} {l : Lane} (b : Block) (q : Option Split)

theorem detectorLane_entered (h : look s.spans.detectors l ≠ .disabled) :
    look (s.detectorLane l b .enteredFault none q).spans.detectors l = .faulted := by
  have hfaulted := faultChange_entered h
  rw [detectorLane_eq]
  exact (congrArg (look ·.spans.detectors l)
    (splitOnly_of_resting (s := s.faultChange l .enteredFault) (.inr (.inr hfaulted)) q)).trans hfaulted

theorem detectorLane_restored (h : look s.spans.detectors l = .faulted) :
    look (s.detectorLane l b .restored none q).spans.detectors l = .quiet := by
  have hquiet := faultChange_restored h
  rw [detectorLane_eq]
  exact (congrArg (look ·.spans.detectors l)
    (splitOnly_of_resting (s := s.faultChange l .restored) (.inr (.inl hquiet)) q)).trans hquiet

/-- The detector that a changed detect setting gives the lane. -/
def State.detectSetting (s : State) (l : Lane) (d : Bool) : Detector :=
  if d then (if (look s.seat.faults l).faulted then .faulted else .quiet) else .disabled

theorem detectSetting_resting (s : State) (l : Lane) (d : Bool) : (s.detectSetting l d).resting := by
  unfold State.detectSetting
  split
  · split
    · exact .inr (.inr rfl)
    · exact .inr (.inl rfl)
  · exact .inl rfl

theorem detectOnly_changed {c : Charter} (hchanged : (s.control.charter.seat (roomSeat s.control.id l)).detect ≠
      (c.seat (roomSeat s.control.id l)).detect) : look (State.detectOnly (some c) s l).spans.detectors l =
      s.detectSetting l (c.seat (roomSeat s.control.id l)).detect := by
  change look (s.detectChange l c).spans.detectors l = _
  cases his : (c.seat (roomSeat s.control.id l)).detect with
  | false =>
    rw [his] at hchanged
    exact detectChange_off c (Bool.eq_true_of_not_eq_false hchanged) his
  | true =>
    rw [his] at hchanged
    exact detectChange_on c (Bool.eq_false_of_not_eq_true hchanged) his

theorem judgedLane_onlySpans (s : State) (l : Lane) (b : Block) (c : FaultChange) :
    OnlySpans s (s.judgedLane l b c) := by
  unfold State.judgedLane
  split
  · exact evaluate_frame s l b
  · exact faultChange_frame s l c

theorem detectorLane_changed (f : FaultChange) {c : Charter}
    (hchanged : (s.control.charter.seat (roomSeat s.control.id l)).detect ≠
      (c.seat (roomSeat s.control.id l)).detect) : look (s.detectorLane l b f (some c) q).spans.detectors l =
      s.detectSetting l (c.seat (roomSeat s.control.id l)).detect := by
  have hframe := judgedLane_onlySpans s l b f
  have hset : look (State.detectOnly (some c) (s.judgedLane l b f) l).spans.detectors l =
      s.detectSetting l (c.seat (roomSeat s.control.id l)).detect := by
    have h := detectOnly_changed (s := s.judgedLane l b f) (l := l) (c := c)
    rw [State.detectSetting, hframe.seat, hframe.control] at h
    exact h hchanged
  rw [detectorLane_eq, splitOnly_of_resting (by rw [hset]; exact detectSetting_resting s l _)]
  exact hset

end Changes

/-- A changed detect setting after a boundary, whether or not the slice was captured. -/
theorem boundary_detect_changed {s : State} {l : Lane} (b : Bool) (p : Presented) (n : Nat)
    (hl : l.val < s.seat.laneCount) {q : PendingCharter} (hpending : s.control.pendingCharter = some q)
    (hchanged : (s.control.charter.seat (roomSeat s.control.id l)).detect ≠
      (q.charter.seat (roomSeat s.control.id l)).detect) :
    look (s.boundary b p n).spans.detectors l =
      (s.boundary b p n).detectSetting l (q.charter.seat (roomSeat s.control.id l)).detect := by
  have hnew : s.newCharter = some q.charter := by rw [State.newCharter, hpending]
  cases hcapturing : s.seat.capturing with
  | true =>
    obtain ⟨w, -, hcontrol, hfaults, hlane⟩ := boundary_detector b p n hcapturing hl
    rw [hlane, hnew, ← hcontrol, detectorLane_changed _ _ _ (by rw [hcontrol]; exact hchanged), State.detectSetting,
      State.detectSetting, hfaults]
  | false =>
    obtain ⟨w, -, hcontrol, hfaults, hlane⟩ := boundary_detector_uncaptured b p n hcapturing hl
    rw [hlane, hnew, ← hcontrol, detectOnly_changed (by rw [hcontrol]; exact hchanged), State.detectSetting,
      State.detectSetting, hfaults]

/-- LANE_FAULT and LANE_RESTORED of a boundary that ends a captured slice. -/
theorem boundary_fault_told {s : State} {l : Lane} (b : Bool) (p : Presented) (n : Nat)
    (hcapturing : s.seat.capturing = true) (hl : l.val < s.seat.laneCount) :
    let report (kind : NoticeKind) (detail : Half) : Raised :=
      { raiser := .seat
        notice := { kind := kind, slice := p.next
                    subject := byte (8 * s.control.id.val + l.val), detail := detail } }
    ((s.faultOf p l).2.1 = .enteredFault →
      report .laneFault (sliceDetail (s.faultOf p l).2.2.1) ∈ (s.boundary b p n).raised) ∧
    ((s.faultOf p l).2.1 = .restored →
      report .laneRestored (BitVec.ofNat 16 (s.faultOf p l).2.2.2) ∈ (s.boundary b p n).raised) := by
  obtain ⟨⟨x, hseat⟩, -, hcontrol, -, -⟩ := unsettled_fields s b p n
  have htells : Tells ((s.unsettled b p n).faulted p) (s.boundary b p n) := by
    refine .trans ?_ (seated_tells s b p n)
    rw [seated_captured b p n hcapturing]
    exact (foldl_tells (fun t l => detectorLane_tells t l _ _ _ _) _ _).trans (stageCapture_tells _ _)
  have htold := faulted_raised (s := s.unsettled b p n) p (l := l) (by rw [hseat]; exact hl)
  rw [(unsettled_blocks s b p n l).2, unsettled_index, hcontrol] at htold
  exact ⟨fun h => htells.mem (htold.1 h), fun h => htells.mem (htold.2 h)⟩

/-! ### O11 -/

theorem getElem_allLanes (l : Lane) : allLanes[l.val]? = some l := by revert l; decide

theorem pageOf_slots (s : State) (p : Presented) (l : Lane) : (s.pageOf p).slots[l.val]? =
    some (if l.val < s.seat.laneCount then some (s.blockOf p l) else none) := by
  rw [State.pageOf]
  exact (List.getElem?_map ..).trans (congrArg _ (getElem_allLanes l))

/-- Settles O11: the page, its staging, the lanes' detectors and fault states, part by part. -/
theorem capturedSliceYieldsOnePage : Obligations.CapturedSliceYieldsOnePage := by
  refine ⟨fun b stepped s hreset hcapturing hempty hmark => ?_,
    fun b stepped s x y hreset hcapturing hfull hmark => ?_,
    fun s l hreset hplan hcapturing hl hrun hstop hcharter hcondition hchange => ?_,
    fun b s hreset hplan hcapturing hlanes hrun hcharter htable houtbox hkeys horphans hheard hchange => ?_,
    fun p s hreset hplan hcapturing hlanes hrun hstop hcharter htable houtbox hkeys horphans hheard hchange => ?_,
    fun b s l hreset hplan hl => ?_⟩
  · obtain ⟨p, n, hended, hstepped, hunlocked, hexec⟩ := exec_boundary_marked b stepped hreset hmark
    refine ⟨_, s.pageOf p, hexec, ?_, hended, hstepped, rfl, rfl, fun l => ?_⟩
    · rw [finish_capture]
      exact boundary_capture_of_empty b p n hcapturing hempty
    · obtain ⟨⟨x, hseat⟩, -, -, -, -⟩ := unsettled_fields s b p n
      have hblock : completeBlock (look s.seat.accs l) l s.clock.index stepped
          (decide (s.clock.discipline ≠ .locked)) s.control.condition = s.blockOf p l := by
        rw [State.blockOf, hended, hstepped, hunlocked]
      rw [hblock, pageOf_slots, finish_seat, boundary_faults b p n hcapturing, faulted_faults,
        (unsettled_blocks s b p n l).2, hseat]
      exact ⟨rfl, rfl⟩
  · obtain ⟨p, n, hended, hstepped, -, hexec⟩ := exec_boundary_marked b stepped hreset hmark
    obtain ⟨hcapture, hdrops, htold⟩ := boundary_capture_of_full b p n hcapturing hfull
    refine ⟨_, _, s.pageOf p, hexec, rfl, (boundary_frame s b p n).notices, hended, rfl, ?_, ?_, ?_⟩
    · rw [finish_capture]
      exact hcapture
    · obtain ⟨-, -, -, -, -, -, h, -⟩ := finish_kept (s.boundary b p n)
      rw [h]
      exact hdrops
    · rw [finish_clock, boundary_clock, (selected_sameTime s b p n).index]
      exact htold
  · have hgoes : ¬ (s.control.pendingStop ≠ none ∨ true = false) := by simp [hstop]
    have hsplit : s.splitAt true s.ordinary.stepped s.ordinary.ended s.ordinary.next = none :=
      splitAt_unchanged hrun _ _ _ _ rfl hgoes fun ⟨c, hc, hother⟩ => hother (hcondition c hc)
    obtain ⟨w, hw, hcontrol, -, hlane⟩ := boundary_detector true s.ordinary (sliceLength s.clock.applied)
      hcapturing hl
    have hplain : (s.faultOf s.ordinary l).2.1 = .none := hchange
    rw [hplain, hsplit, State.newCharter, hcharter, detectorLane_plain] at hlane
    refine ⟨_, exec_sliceBoundary true s hreset hplan, ?_⟩
    have hkey (u : Slice) : w.ownKey l u = s.ownKey l u := by rw [State.ownKey, hcontrol]; rfl
    have hnew (u : Slice) (h : entryOf s.spans.table (s.ownKey l u) = none) :
        entryOf w.spans.table (w.ownKey l u) = none := hkey u ▸ hw.entryOf_none rfl h
    have hbefore := hw.1
    dsimp only
    rw [finish_spans, hlane]
    cases hdetector : look s.spans.detectors l with
    | disabled => exact (congrArg (look ·.spans.detectors l)
        (evaluate_of_off _ (.inl (hbefore.trans hdetector)))).trans (hbefore.trans hdetector)
    | faulted => exact (congrArg (look ·.spans.detectors l)
        (evaluate_of_off _ (.inr (hbefore.trans hdetector)))).trans (hbefore.trans hdetector)
    | quiet =>
      obtain ⟨hlow, hcounting, hopens⟩ := evaluate_from_quiet (s.blockOf s.ordinary l) (hbefore.trans hdetector)
      rw [hcontrol] at hlow hcounting hopens
      exact ⟨hlow, hcounting, fun hloud hcount h => hkey _ ▸ hopens hloud hcount (hnew _ h)⟩
    | onset n u =>
      obtain ⟨hlow, hcounting, hopens⟩ := evaluate_from_onset (s.blockOf s.ordinary l) (hbefore.trans hdetector)
      rw [hcontrol] at hlow hcounting hopens
      exact ⟨hlow, hcounting, fun hloud hcount h => hkey _ ▸ hopens hloud hcount (hnew _ h)⟩
    | active last k =>
      have h := evaluate_from_span (s.blockOf s.ordinary l) (evaluate_of_active _ (hbefore.trans hdetector)) rfl
      rwa [hcontrol] at h
    | hang n last k =>
      have h := evaluate_from_span (s.blockOf s.ordinary l) (evaluate_of_hang _ (hbefore.trans hdetector)) rfl
      rwa [hcontrol] at h
  · obtain ⟨w, hspans, hcontrol, hmark, hout⟩ := boundary_spans_alone b s.ordinary (sliceLength s.clock.applied)
      hcapturing hlanes hcharter horphans hheard
    have hplain : (s.faultOf s.ordinary 0).2.1 = .none := hchange
    have hcondition : (s.blockOf s.ordinary 0).condition = w.control.condition := by rw [hcontrol]; rfl
    have htime (u : Slice) : s.clock.timeOfDay u = w.clock.timeOfDay u := by
      rw [Clock.timeOfDay, Clock.timeOfDay, hmark]
    have hkey (u : Slice) : s.ownKey 0 u = w.ownKey 0 u := by rw [State.ownKey, State.ownKey, hcontrol]
    have hstopped := splitAt_stopped hrun b s.ordinary.stepped s.ordinary.ended s.ordinary.next
    have hchanged := splitAt_changed hrun b s.ordinary.stepped s.ordinary.ended s.ordinary.next rfl
    have hunchanged := splitAt_unchanged hrun b s.ordinary.stepped s.ordinary.ended s.ordinary.next rfl
    rw [hplain] at hout
    refine ⟨_, exec_sliceBoundary b s hreset hplan, ?_⟩
    dsimp only
    rw [finish_spans, hout]
    simp only [htime, hkey]
    rw [← hspans] at htable houtbox hkeys
    rw [← hcontrol] at hstopped hchanged hunchanged
    rw [← hspans, ← hcontrol]
    refine ⟨fun n u honset hloud hcount hstay hsame hnew => ?_, fun n u honset hloud hcount hknown => ?_,
      fun n last k e hhang he hlow hcount => ?_, fun n last k e hhang he hlow hcount => ⟨fun hstops => ?_,
        fun hstay hother => ?_⟩, fun last k e hactive he hloud => ⟨fun hstops => ?_, fun hstay hother hknown => ?_,
        fun hstay c hpending hother hnew => ?_⟩⟩
    · have hopens := detectorLane_opens (s.blockOf s.ordinary 0) honset hloud hcount htable (by omega) hnew
      rw [hcondition] at hopens
      rw [hunchanged hstay hsame]
      refine ⟨w.newEntry 0 u w.control.condition false, hopens.1, hopens.2, rfl, rfl, rfl, rfl, rfl, rfl, rfl, rfl,
        linkFor_of_none _, fun m x more rest hlink hsplit hopen hseat hunder hfirst => ?_⟩
      exact linkFor_of_first hlink hsplit hopen hseat hunder hfirst
    · exact detectorLane_refused (s.blockOf s.ordinary 0) _ honset hloud hcount hknown
    · exact detectorLane_silence (s.blockOf s.ordinary 0) _ hkeys houtbox he hhang hlow hcount
    · rw [hstopped hstops]
      exact detectorLane_split_hang (s.blockOf s.ordinary 0) hkeys houtbox he hhang hlow hcount _
    · rw [hchanged hstay hother]
      exact detectorLane_split_hang (s.blockOf s.ordinary 0) hkeys houtbox he hhang hlow hcount _
    · rw [hstopped hstops]
      exact detectorLane_stopped (s.blockOf s.ordinary 0) hkeys houtbox he hactive hloud rfl
    · rw [hchanged hstay hother]
      exact detectorLane_split_known (s.blockOf s.ordinary 0) hkeys houtbox he hactive hloud nofun hknown
    · rw [hchanged hstay ⟨c, hpending, hother⟩]
      obtain ⟨f, htab, hbox, hdet, hfkey, hfstatus, hfcont, hfcond, hfrole, -, hftime⟩ :=
        detectorLane_split_new (s.blockOf s.ordinary 0) hkeys houtbox he hactive hloud htable
          (p := s.splitFor .condition s.ordinary.ended s.ordinary.next) nofun hnew
      refine ⟨f, htab, hfkey, hfstatus, hfcont, ?_, hfrole, hftime, ⟨_, hbox, rfl, rfl⟩, hdet⟩
      rw [hfcond, State.splitFor, ← hcontrol, hpending]
      rfl
  · obtain ⟨w, hspans, hcontrol, hmark, hout⟩ := boundary_spans_alone true (s.stepTo p) p.count hcapturing hlanes
      hcharter horphans hheard
    have hplain : (s.faultOf (s.stepTo p) 0).2.1 = .none := hchange
    have htime (u : Slice) : s.clock.timeOfDay u = w.clock.timeOfDay u := by
      rw [Clock.timeOfDay, Clock.timeOfDay, hmark]
    have hsplit : s.splitAt true (s.stepTo p).stepped (s.stepTo p).ended (s.stepTo p).next =
        some (s.splitFor .realigned (s.stepTo p).ended (s.stepTo p).next) := by
      rw [splitAt_of_going hrun _ _ _ _ (by simp [hstop])]
      rfl
    rw [hplain, hsplit] at hout
    refine ⟨_, exec_stepBoundary true hreset hplan, ?_⟩
    dsimp only
    rw [finish_spans, hout]
    simp only [htime]
    rw [← hspans] at htable houtbox hkeys
    rw [← hspans, ← hcontrol]
    refine ⟨fun last k e hactive he hloud =>
        ⟨(e.close s.clock.index .realigned w.control.id).item, rfl, rfl, fun hnew => ?_, fun hknown => ?_⟩,
      fun n last k e hhang he hlow hcount => ⟨(e.close last .realigned w.control.id).item, rfl, rfl, ?_⟩⟩
    · obtain ⟨f, htab, hbox, hdet, hfkey, hfstatus, hfcont, hfcond, -, hfby, hftime⟩ :=
        detectorLane_split_new (s.blockOf (s.stepTo p) 0) hkeys houtbox he hactive hloud htable
          (p := s.splitFor .realigned (s.stepTo p).ended (s.stepTo p).next) nofun hnew
      refine ⟨f, htab, hbox, hfkey, hfstatus, hfcont, ?_, hfby, hftime, hdet.trans (by rw [hfkey]; rfl)⟩
      rw [hfcond, State.splitFor, ← hcontrol]
    · exact detectorLane_split_known (s.blockOf (s.stepTo p) 0) hkeys houtbox he hactive hloud
        (p := s.splitFor .realigned (s.stepTo p).ended (s.stepTo p).next) nofun hknown
    · exact detectorLane_split_hang (s.blockOf (s.stepTo p) 0) hkeys houtbox he hhang hlow hcount
        (s.splitFor .realigned (s.stepTo p).ended (s.stepTo p).next)
  · refine ⟨_, exec_sliceBoundary b s hreset hplan, rfl, fun hcapturing => ?_, fun hcapturing hcharter => ?_,
      fun q hpending => ?_⟩
    · exact boundary_fault_told b s.ordinary _ hcapturing hl
    · obtain ⟨w, hw, -, -, hlane⟩ := boundary_detector b s.ordinary (sliceLength s.clock.applied) hcapturing hl
      rw [State.newCharter, hcharter] at hlane
      dsimp only
      rw [finish_spans, hlane]
      refine ⟨fun hchange hon => ?_, fun hchange hfaulted => ?_⟩
      · rw [show (s.faultOf s.ordinary l).2.1 = .enteredFault from hchange]
        exact detectorLane_entered _ _ (by rw [hw.1]; exact hon)
      · rw [show (s.faultOf s.ordinary l).2.1 = .restored from hchange]
        exact detectorLane_restored _ _ (hw.1.trans hfaulted)
    · have hchanged := boundary_detect_changed b s.ordinary (sliceLength s.clock.applied) hl hpending
      dsimp only
      rw [finish_spans, finish_seat]
      refine ⟨fun hwas his => ?_, fun hwas his => ?_⟩
      · rw [hwas, his] at hchanged
        exact hchanged nofun
      · rw [hwas, his] at hchanged
        exact hchanged nofun

end Sys2Proof.Machine
end


section
/-! SUPPORT. What the request items of an accepted frame leave as it is (R171): the seats, the link, the spans,
what the sender's header has set in the roster, and the selections. -/

namespace Sys2Proof.Machine

/-! ### Selections from entries that agree but for the digest agreement -/

/-- The entries are as they were, but for their digest agreements. -/
def SameEntries (s t : State) : Prop :=
  ∀ j, ∃ g, look t.roster.entries j = { look s.roster.entries j with agreement := g }

theorem SameEntries.of_eq {s t : State} (h : t.roster.entries = s.roster.entries) : SameEntries s t :=
  fun _ => ⟨_, by rw [h]⟩

theorem SameEntries.trans {s t u : State} (h : SameEntries s t) (h' : SameEntries t u) : SameEntries s u := by
  intro j
  obtain ⟨g, hg⟩ := h j
  obtain ⟨g', hg'⟩ := h' j
  exact ⟨g', by rw [hg', hg]⟩

/-- Which stations are candidates depends on the peers' entries, the mode and the ID. -/
theorem candidate_congr {s t : State} (hid : t.control.id = s.control.id) (hactive : t.active = s.active)
    {k : StationId} (hentry : k ≠ s.control.id →
      (look t.roster.entries k).candidate = (look s.roster.entries k).candidate) :
    (t.entry k).candidate = (s.entry k).candidate := by
  by_cases hk : k = s.control.id
  · have ht := ownEntry_candidate_iff t
    have hs := ownEntry_candidate_iff s
    rw [hactive, hid] at ht
    rw [hk]
    exact Bool.eq_iff_iff.mpr (ht.trans hs.symm)
  · rw [State.entry, State.entry, if_neg hk, if_neg (by rw [hid]; exact hk), hentry hk]

theorem SameEntries.candidate {s t : State} (h : SameEntries s t) (hid : t.control.id = s.control.id)
    (hactive : t.active = s.active) (k : StationId) : (t.entry k).candidate = (s.entry k).candidate := by
  refine candidate_congr hid hactive fun _ => ?_
  obtain ⟨g, hg⟩ := h k
  rw [hg]
  rfl

theorem SameEntries.chooseReference {s t : State} (h : SameEntries s t) (hid : t.control.id = s.control.id)
    (hactive : t.active = s.active) : t.chooseReference = s.chooseReference := by
  simp only [State.chooseReference, h.candidate hid hactive]

theorem fromConsole_iff (s : State) (k : StationId) : s.fromConsole k = true ↔
    k ≠ s.control.id ∧ (look s.roster.entries k).kind = some .console := by
  rw [State.fromConsole, State.hears, Bool.and_eq_true, decide_eq_true_iff, decide_eq_true_iff]
  refine and_congr_right fun hother => ?_
  rw [State.entry, if_neg hother]

theorem SameEntries.fromConsole {s t : State} (h : SameEntries s t) (hid : t.control.id = s.control.id)
    (k : StationId) : t.fromConsole k = s.fromConsole k := by
  obtain ⟨g, hg⟩ := h k
  rw [Bool.eq_iff_iff, fromConsole_iff, fromConsole_iff, hid, hg]

/-! ### What requests leave -/

/-- What request items of a sender leave of the state before. -/
structure Requested (k : StationId) (s t : State) : Prop where
  seat : t.seat = s.seat
  link : t.link = s.link
  id : t.control.id = s.control.id
  mode : t.control.mode = s.control.mode
  followed : t.control.followed = s.control.followed
  entries : SameEntries s t
  table : t.spans.table = s.spans.table
  outbox : t.spans.outbox = s.spans.outbox
  custody : t.spans.custody = s.spans.custody
  reference : s.roster.reference = s.chooseReference →
    t.roster.reference = s.roster.reference ∧ t.clock = { s.clock with mark := t.clock.mark }
  mirror : t.roster.mirror = s.roster.mirror ∨ t.roster.mirror = none
  storage : s.active = true →
    t.store = s.store ∧ t.rings.runs = s.rings.runs ∧ t.roster.reference = s.roster.reference
  console : s.fromConsole k = false → t.control = s.control

namespace Requested

variable {k : StationId} {s t u : State}

theorem active (h : Requested k s t) : t.active = s.active := by
  unfold State.active
  rw [h.mode]

/-- The requests that give the controller, the mark, the recall service or the archive marks something. -/
theorem of_plain {c : Control} {m : Option TimeMark} {g : Rings} {v : Recall} {r : List Raised}
    (ht : t = { s with clock := { s.clock with mark := m }, rings := g, server := v, control := c, raised := r })
    (hid : c.id = s.control.id) (hmode : c.mode = s.control.mode) (hfollowed : c.followed = s.control.followed)
    (hruns : g.runs = s.rings.runs) (hconsole : s.fromConsole k = false → c = s.control) : Requested k s t := by
  subst ht
  exact ⟨rfl, rfl, hid, hmode, hfollowed, .of_eq rfl, rfl, rfl, rfl, fun _ => ⟨rfl, rfl⟩, .inl rfl,
    fun _ => ⟨rfl, hruns, rfl⟩, hconsole⟩

theorem refl (k : StationId) (s : State) : Requested k s s :=
  of_plain (m := s.clock.mark) rfl rfl rfl rfl rfl fun _ => rfl

theorem trans (h : Requested k s t) (h' : Requested k t u) : Requested k s u where
  seat := h'.seat.trans h.seat
  link := h'.link.trans h.link
  id := h'.id.trans h.id
  mode := h'.mode.trans h.mode
  followed := h'.followed.trans h.followed
  entries := h.entries.trans h'.entries
  table := h'.table.trans h.table
  outbox := h'.outbox.trans h.outbox
  custody := h'.custody.trans h.custody
  reference := fun hs => by
    obtain ⟨hreference, hclock⟩ := h.reference hs
    obtain ⟨hreference', hclock'⟩ := h'.reference
      (hreference.trans (hs.trans (h.entries.chooseReference h.id h.active).symm))
    refine ⟨hreference'.trans hreference, ?_⟩
    rw [hclock', hclock]
  mirror := by
    obtain hsame | hnone := h'.mirror
    · rw [hsame]
      exact h.mirror
    · exact .inr hnone
  storage := fun hs => by
    obtain ⟨hstore, hruns, hroster⟩ := h.storage hs
    obtain ⟨hstore', hruns', hroster'⟩ := h'.storage (h.active.trans hs)
    exact ⟨hstore'.trans hstore, hruns'.trans hruns, hroster'.trans hroster⟩
  console := fun hs =>
    (h'.console ((h.entries.fromConsole h.id k).trans hs)).trans (h.console hs)

end Requested

/-! ### A charter adopted in LISTEN (R168) -/

theorem enforce_entries (s : State) (p : PendingCharter) : SameEntries s (s.enforce p) := by
  intro j
  have agreed (u : State) (h : u.roster.entries = s.roster.entries) :
      ∃ g, look u.refreshAgreements.roster.entries j = { look s.roster.entries j with agreement := g } := by
    have hmap : look u.refreshAgreements.roster.entries j =
        if (look u.roster.entries j).state = .present then
          { look u.roster.entries j with agreement := u.agreementOf (look u.roster.entries j).digest }
        else look u.roster.entries j := look_map _ _ _
    rw [hmap, h]
    split <;> exact ⟨_, rfl⟩
  unfold State.enforce
  dsimp only
  refine agreed _ ?_
  split
  · rw [resplit_rest]
    rfl
  · rfl

theorem active_of_mode {s : State} (h : s.control.mode = some .listen) : s.active = false := by
  unfold State.active
  rw [h]
  rfl

theorem chooseMirror_of_inactive {s : State} (hinactive : s.active = false) : s.chooseMirror = none :=
  if_pos (.inr hinactive)

/-- The selections made again outside RUN and IDLE, at a console's request. -/
theorem recompute_requested {k : StationId} {s : State} (hinactive : s.active = false)
    (hconsole : s.fromConsole k = true) : Requested k s s.recompute := by
  have hroster := recompute_roster s
  have hclock := recompute_clock_same (s := s)
  obtain ⟨_, _, _, _, _, _, h⟩ := recompute_frame s
  have hentries : SameEntries s s.recompute := .of_eq (by rw [hroster])
  have hspans := recompute_spans s
  have hcontrol := recompute_control s
  refine ⟨by rw [h], by rw [h], by rw [hcontrol], by rw [hcontrol], by rw [hcontrol], hentries, by rw [hspans],
    by rw [hspans], by rw [hspans], fun hs => ⟨?_, ?_⟩, .inr ?_, fun hs => (nomatch hinactive.symm.trans hs),
    fun hs => nomatch hconsole.symm.trans hs⟩
  · rw [hroster]
    exact hs.symm
  · rw [hclock hs.symm]
  · rw [hroster]
    exact chooseMirror_of_inactive hinactive

/-- A charter that comes into force with its detect settings, in LISTEN. -/
theorem enforce_requested {k : StationId} {s : State} (p : PendingCharter) (hinactive : s.active = false)
    (hconsole : s.fromConsole k = true) : Requested k s ((s.enforce p).settingsFrom p.charter) := by
  have hentries : SameEntries s ((s.enforce p).settingsFrom p.charter) := by
    refine (enforce_entries s p).trans (.of_eq ?_)
    rw [settingsFrom_rest]
  obtain ⟨_, _, _, _, _, h⟩ := settled_charter s p
  rw [h] at hentries ⊢
  exact ⟨rfl, rfl, rfl, rfl, rfl, hentries, rfl, rfl, rfl, fun _ => ⟨rfl, rfl⟩, .inl rfl,
    fun hs => (nomatch hinactive.symm.trans hs), fun hs => nomatch hconsole.symm.trans hs⟩

theorem adoptNow_requested {k : StationId} {s : State} (p : PendingCharter)
    (hlisten : s.control.mode = some .listen) (hconsole : s.fromConsole k = true) :
    Requested k s (s.adoptNow p) := by
  have hset := enforce_requested p (active_of_mode hlisten) hconsole
  by_cases hsame : p.charter.mirrorShare = s.control.charter.mirrorShare
  · rw [adoptNow_same hsame]
    exact hset
  · rw [adoptNow_other hsame]
    exact hset.trans (recompute_requested (hset.active.trans (active_of_mode hlisten))
      ((hset.entries.fromConsole hset.id k).trans hconsole))

/-! ### Request by request -/

theorem raise_requested (k : StationId) (s : State) (b : Raiser) (n : NoticeKind) (x : Nat) (d : Half) :
    Requested k s (s.raise b n x d) :=
  .of_plain (m := s.clock.mark) rfl rfl rfl rfl rfl fun _ => rfl

theorem takeCharter_requested (k : StationId) (s : State) (body : List Byte) :
    Requested k s (s.takeCharter k body) := by
  unfold State.takeCharter
  split
  · next h =>
    split
    · exact raise_requested k s _ _ _ _
    · unfold State.judgeCharter
      dsimp only
      split
      · next hlisten => exact adoptNow_requested _ hlisten.1 h.1
      · split
        · exact .refl k s
        · split
          · exact .of_plain (m := s.clock.mark) rfl rfl rfl rfl rfl fun hs => nomatch h.1.symm.trans hs
          · split
            · exact raise_requested k s _ _ _ _
            · exact .refl k s
  · exact .refl k s

theorem judgeRecall_requested (k : StationId) (s : State) (t : Half) (a b : Byte) (f l : Slice) :
    Requested k s (s.judgeRecall k t a b f l) := by
  have refused : Requested k s (s.refuseRecall k t) := raise_requested k s _ _ _ _
  unfold State.judgeRecall
  split
  · exact refused
  · dsimp only
    split
    · exact refused
    · split
      · exact refused
      · split
        · exact refused
        · split
          · exact .refl k s
          · split
            · exact refused
            · exact .of_plain (m := s.clock.mark) rfl rfl rfl rfl rfl fun _ => rfl

theorem takeRequest_requested (k : StationId) (s : State) (r : Request) : Requested k s (s.takeRequest k r) := by
  have console {c : Control} (hid : c.id = s.control.id) (hmode : c.mode = s.control.mode)
      (hfollowed : c.followed = s.control.followed) (h : s.fromConsole k = true) :
      Requested k s (s.withControl c) :=
    .of_plain (m := s.clock.mark) rfl hid hmode hfollowed rfl fun hs => nomatch h.symm.trans hs
  cases r with
  | charter body => exact takeCharter_requested k s body
  | condition code =>
    change Requested k s (s.takeCondition k code)
    unfold State.takeCondition
    split
    · next h =>
      split
      · exact .refl k s
      · exact console rfl rfl rfl h.1
    · exact .refl k s
  | timeMark e d ms =>
    change Requested k s (s.takeTimeMark k e d ms)
    unfold State.takeTimeMark Clock.takeMark
    split
    · split
      · exact .of_plain rfl rfl rfl rfl rfl fun _ => rfl
      · exact .refl k s
    · exact .refl k s
  | probe target v =>
    change Requested k s (s.takeProbe k target v)
    unfold State.takeProbe
    split
    · exact raise_requested k s _ _ _ _
    · exact .refl k s
  | stop target =>
    change Requested k s (s.takeStop k target)
    unfold State.takeStop
    split
    · next h => exact console rfl rfl rfl h.1
    · exact .refl k s
  | start target =>
    change Requested k s (s.takeStart k target)
    unfold State.takeStart
    split
    · next h => exact console rfl rfl rfl h.1
    · exact .refl k s
  | archiveMark pairs =>
    change Requested k s (s.takeArchiveMark k pairs)
    unfold State.takeArchiveMark
    split
    · exact .of_plain (m := s.clock.mark) rfl rfl rfl rfl (takePairs_runs pairs s.rings) fun _ => rfl
    · exact .refl k s
  | recallRequest tag h src mask f l =>
    change Requested k s (s.takeRecallRequest k tag h src mask f l)
    unfold State.takeRecallRequest State.takeRecall
    split
    · split
      · exact judgeRecall_requested k s _ _ _ _ _
      · exact .refl k s
    · exact .refl k s

/-- The request items of a frame, in order. -/
theorem takeRequests_requested (k : StationId) (rs : List Request) (s : State) :
    Requested k s (rs.foldl (fun s r => s.takeRequest k r) s) :=
  foldl_frame (Requested.refl k) Requested.trans _ (takeRequest_requested k) rs s

end Sys2Proof.Machine
end


section
/-! SUPPORT. A window frame's header applied to the roster (R60 to R62): the entry, the reports of an old
incarnation and of a return, and PEER_JOINED. -/

namespace Sys2Proof.Machine

/-! ### The reports -/

/-- The old incarnation's spans are closed, its custody and its requests leave (R62, R100, R153). -/
theorem reportIncarnation_rest (s : State) (k : StationId) (e : RosterEntry) : ∃ a v,
    s.reportIncarnation k e = { s with
      spans := { s.spans with
        table := s.spans.table.map (closeOld k e.lastBlock s.control.id)
        custody := s.spans.custody.filter fun x => decide (x.peer ≠ k) }
      rings := a, server := v } ∧ ∀ q ∈ v.queue, q.id.requester ≠ k := by
  have hqueue : ∀ q ∈ (s.server.purge k).pump.queue, q.id.requester ≠ k := by
    rw [pump_queue, purge_queue]
    exact fun q hq => of_decide_eq_true (List.mem_filter.mp hq).2
  unfold State.reportIncarnation
  dsimp only
  split
  · exact ⟨_, _, rfl, hqueue⟩
  · exact ⟨_, _, rfl, hqueue⟩

/-- A row of items joins an outbox with room for them all (R88). -/
theorem announceAll_of_room (items : List SpanItem) {s : State}
    (hroom : s.spans.outbox.length + items.length ≤ 64) : items.foldl State.announce s =
      s.withSpans { s.spans with outbox := s.spans.outbox ++ items } := by
  induction items generalizing s with
  | nil => rw [List.append_nil]; rfl
  | cons i items ih =>
    rw [List.length_cons] at hroom
    rw [List.foldl_cons, announce_of_room i (by omega), ih]
    · rw [withSpans_spans, List.append_assoc]
      rfl
    · rw [withSpans_spans, List.length_append, List.length_singleton]
      omega

theorem announceAll_table (items : List SpanItem) (s : State) :
    (items.foldl State.announce s).spans.table = s.spans.table := by
  induction items generalizing s with
  | nil => rfl
  | cons i items ih => exact (ih _).trans (announce_table s i).1

/-- The custody record of a peer heard again. -/
def CustodyRecord.of (k : StationId) (join : Option Slice) (r : CustodyRecord) : Bool :=
  decide (r.peer = k ∧ r.join = join)

theorem returnReport_none {s : State} {k : StationId} {join : Option Slice}
    (h : s.spans.custody.find? (CustodyRecord.of k join) = none) : s.returnReport k join = s := by
  unfold CustodyRecord.of at h
  unfold State.returnReport
  rw [h]

theorem returnReport_some {s : State} {k : StationId} {join : Option Slice} {r : CustodyRecord}
    (h : s.spans.custody.find? (CustodyRecord.of k join) = some r) : s.returnReport k join =
      (r.items.foldl State.announce s).withSpans { (r.items.foldl State.announce s).spans with
        custody := (r.items.foldl State.announce s).spans.custody.filter fun x => decide (x.peer ≠ k) } := by
  unfold CustodyRecord.of at h
  unfold State.returnReport
  rw [h]

/-- The report of a return leaves the table (R99). -/
theorem returnReport_table (s : State) (k : StationId) (join : Option Slice) :
    (s.returnReport k join).spans.table = s.spans.table := by
  cases h : s.spans.custody.find? (CustodyRecord.of k join) with
  | none => rw [returnReport_none h]
  | some r =>
    rw [returnReport_some h]
    exact announceAll_table r.items s

/-- The custody items of a peer heard again are announced, and its record leaves (R99). -/
theorem returnReport_found {s : State} {k : StationId} {join : Option Slice} {r : CustodyRecord}
    (h : s.spans.custody.find? (CustodyRecord.of k join) = some r)
    (hroom : s.spans.outbox.length + r.items.length ≤ 64) :
    (s.returnReport k join).spans.outbox = s.spans.outbox ++ r.items ∧
      ∀ x ∈ (s.returnReport k join).spans.custody, x.peer ≠ k := by
  rw [returnReport_some h, announceAll_of_room r.items hroom]
  exact ⟨rfl, fun x hx => of_decide_eq_true (List.mem_filter.mp hx).2⟩

/-! ### The header, before the selections (R60, R61) -/

/-- The end of an old incarnation has been reported, when the header begins a new one. -/
def State.incarnated (s : State) (k : StationId) (e : RosterEntry) (c : Hearing) : State :=
  if c.isNew then s.reportIncarnation k e else s

/-- PEER_JOINED in the cases that raise it. -/
def State.tellJoined (s : State) (k : StationId) (c : Hearing) : State :=
  match c.detail with
  | none => s
  | some d => s.raise .roster .peerJoined k.val d

/-- A return is reported. -/
def State.tellReturn (s : State) (k : StationId) (join : Option Slice) (c : Hearing) : State :=
  if c = .returned then s.returnReport k join else s

/-- The state in which the selections are made again after a header. -/
def State.headed (s : State) (h : Header) (t : Option Slice) : State :=
  let e := s.entry h.sender
  let c := e.hearing h
  let u := s.incarnated h.sender e c
  ((u.setEntry h.sender (u.heardEntry e h c t)).tellJoined h.sender c).tellReturn h.sender (some h.join) c

theorem applyHeader_eq (s : State) (h : Header) (t : Option Slice) :
    s.applyHeader h t = (s.headed h t).recompute := rfl

theorem incarnated_rest (s : State) (k : StationId) (e : RosterEntry) (c : Hearing) : ∃ x a v,
    s.incarnated k e c = { s with spans := x, rings := a, server := v } := by
  unfold State.incarnated
  split
  · obtain ⟨_, _, h, -⟩ := reportIncarnation_rest s k e
    exact ⟨_, _, _, h⟩
  · exact ⟨_, _, _, rfl⟩

theorem tellJoined_rest (s : State) (k : StationId) (c : Hearing) : ∃ r, s.tellJoined k c = { s with raised := r } := by
  unfold State.tellJoined
  split <;> exact ⟨_, rfl⟩

theorem tellReturn_onlySpans (s : State) (k : StationId) (j : Option Slice) (c : Hearing) :
    OnlySpans s (s.tellReturn k j c) := by
  unfold State.tellReturn
  split
  · exact returnReport_frame s k j
  · exact .refl s

theorem told_onlySpans (s : State) (k : StationId) (j : Option Slice) (c : Hearing) :
    OnlySpans s ((s.tellJoined k c).tellReturn k j c) := by
  obtain ⟨_, h⟩ := tellJoined_rest s k c
  exact .trans ⟨_, _, h⟩ (tellReturn_onlySpans _ k j c)

/-- The sender's entry as the header leaves it (R61). -/
def State.headedEntry (s : State) (h : Header) (t : Option Slice) : RosterEntry :=
  s.heardEntry (s.entry h.sender) h ((s.entry h.sender).hearing h) t

/-- What the header replaces before the selections are made again. -/
theorem headed_rest (s : State) (h : Header) (t : Option Slice) : ∃ x a v r, s.headed h t = { s with
    roster := { s.roster with entries := put s.roster.entries h.sender (s.headedEntry h t) }
    spans := x, rings := a, server := v, raised := r } := by
  unfold State.headed
  dsimp only
  obtain ⟨_, _, _, hu⟩ := incarnated_rest s h.sender (s.entry h.sender) ((s.entry h.sender).hearing h)
  rw [hu]
  obtain ⟨_, _, htold⟩ := told_onlySpans _ h.sender (some h.join) ((s.entry h.sender).hearing h)
  rw [htold]
  exact ⟨_, _, _, _, rfl⟩

/-! ### The cases of R60 -/

section Cases

variable {s : State} {h : Header} (t : Option Slice)

theorem tellJoined_told {s : State} {k : StationId} {c : Hearing} {d : Half} (hdetail : c.detail = some d) :
    ({ raiser := .roster, notice := { kind := .peerJoined, slice := s.clock.index, subject := byte k.val
                                      detail := d } } : Raised) ∈ (s.tellJoined k c).raised := by
  rw [State.tellJoined, hdetail]
  exact List.mem_append_right _ (List.mem_singleton.mpr rfl)

/-- PEER_JOINED with the detail of the case (R60). -/
theorem headed_joined {d : Half} (hdetail : ((s.entry h.sender).hearing h).detail = some d) :
    ({ raiser := .roster, notice := { kind := .peerJoined, slice := s.clock.index, subject := byte h.sender.val
                                      detail := d } } : Raised) ∈ (s.headed h t).raised := by
  have hreturn (u : State) (c : Hearing) : Tells u (u.tellReturn h.sender (some h.join) c) := by
    unfold State.tellReturn
    split
    · exact returnReport_tells u _ _
    · exact .refl u
  unfold State.headed
  dsimp only
  obtain ⟨_, _, _, hu⟩ := incarnated_rest s h.sender (s.entry h.sender) ((s.entry h.sender).hearing h)
  rw [hu]
  exact (hreturn _ _).mem (tellJoined_told hdetail)

/-- A header that begins no incarnation and ends no loss leaves the spans. -/
theorem headed_spans_new (hnew : ((s.entry h.sender).hearing h).isNew = true) :
    (s.headed h t).spans = { s.spans with
      table := s.spans.table.map (closeOld h.sender (s.entry h.sender).lastBlock s.control.id)
      custody := s.spans.custody.filter fun x => decide (x.peer ≠ h.sender) } ∧
    ∀ q ∈ (s.headed h t).server.queue, q.id.requester ≠ h.sender := by
  have hnot : (s.entry h.sender).hearing h ≠ .returned := fun hc => by rw [hc] at hnew; exact nomatch hnew
  obtain ⟨a, v, hreport, hqueue⟩ := reportIncarnation_rest s h.sender (s.entry h.sender)
  unfold State.headed
  dsimp only
  rw [State.incarnated, if_pos hnew, hreport, State.tellReturn, if_neg hnot]
  obtain ⟨_, hjoined⟩ := tellJoined_rest (State.setEntry { s with
      spans := { s.spans with
        table := s.spans.table.map (closeOld h.sender (s.entry h.sender).lastBlock s.control.id)
        custody := s.spans.custody.filter fun x => decide (x.peer ≠ h.sender) }
      rings := a, server := v } h.sender (State.heardEntry _ (s.entry h.sender) h
        ((s.entry h.sender).hearing h) t)) h.sender ((s.entry h.sender).hearing h)
  rw [hjoined]
  exact ⟨rfl, hqueue⟩

/-- A header that ends a loss reports the return. -/
theorem headed_spans_returned (hreturned : (s.entry h.sender).hearing h = .returned) :
    ∃ u : State, u.spans = s.spans ∧ (s.headed h t).spans = (u.returnReport h.sender (some h.join)).spans := by
  unfold State.headed
  dsimp only
  rw [State.tellReturn, if_pos hreturned]
  refine ⟨_, ?_, rfl⟩
  rw [hreturned]
  rfl

end Cases

end Sys2Proof.Machine
end


section
/-! SUPPORT. The stages of an accepted window frame behind the roster's (R52): the reference's condition, the
lead-in, the blocks, the span items and beacons; what each replaces. -/

namespace Sys2Proof.Machine

/-! ### Custody records through the span items -/

/-- Only the spans but for the custody records, and the raised notices, differ. -/
def OnlyTable (s t : State) : Prop := ∃ d l o n r, t = { s with
  spans := { s.spans with detectors := d, table := l, outbox := o, outboxDrops := n }, raised := r }

theorem OnlyTable.refl (s : State) : OnlyTable s s := ⟨_, _, _, _, _, rfl⟩

theorem OnlyTable.trans {s t u : State} : OnlyTable s t → OnlyTable t u → OnlyTable s u := by
  rintro ⟨_, _, _, _, _, rfl⟩ ⟨_, _, _, _, _, rfl⟩; exact ⟨_, _, _, _, _, rfl⟩

theorem OnlyTable.of_custody {s t : State} (h : OnlySpans s t) (hcustody : t.spans.custody = s.spans.custody) :
    OnlyTable s t := by
  obtain ⟨x, r, rfl⟩ := h
  cases x
  cases hcustody
  exact ⟨_, _, _, _, _, rfl⟩

theorem setDetector_onlyTable (s : State) (l : Lane) (d : Detector) : OnlyTable s (s.setDetector l d) :=
  ⟨_, _, _, _, _, rfl⟩

theorem announce_onlyTable (s : State) (i : SpanItem) : OnlyTable s (s.announce i) :=
  .of_custody (announce_frame s i) (announce_table s i).2

theorem evict_onlyTable (s : State) : OnlyTable s s.evict := by
  unfold State.evict
  split
  · exact ⟨_, _, _, _, _, rfl⟩
  · split <;> exact ⟨_, _, _, _, _, rfl⟩

theorem insertEntry_onlyTable (s : State) (e : SpanEntry) : OnlyTable s (s.insertEntry e) := by
  have append (u : State) : OnlyTable u (State.appendEntry e u) := by
    unfold State.appendEntry
    split <;> exact ⟨_, _, _, _, _, rfl⟩
  rw [insertEntry_eq]
  split
  · exact append s
  · exact (evict_onlyTable s).trans (append _)

theorem tryOpen_onlyTable (s : State) (l : Lane) (t : Slice) (c : Condition) (b : Bool) (u : Slice) :
    OnlyTable s (s.tryOpen l t c b u) := by
  unfold State.tryOpen
  split
  · exact setDetector_onlyTable s l _
  · exact ((insertEntry_onlyTable s _).trans (announce_onlyTable _ _)).trans (setDetector_onlyTable _ l _)

theorem insertOpen_onlyTable (s : State) (k : StationId) (i : SpanItem) : OnlyTable s (s.insertOpen k i) := by
  unfold State.insertOpen
  split
  · exact insertEntry_onlyTable s _
  · split
    · exact .trans (t := s.withSpans _) ⟨_, _, _, _, _, rfl⟩ (insertEntry_onlyTable _ _)
    · exact .refl s

theorem reopenAfterCustody_onlyTable (s : State) (e : SpanEntry) (u : Slice) :
    OnlyTable s (s.reopenAfterCustody e u) := by
  unfold State.reopenAfterCustody
  dsimp only
  split
  · split
    · exact tryOpen_onlyTable s _ _ _ _ _
    · exact .refl s
  · split
    · exact setDetector_onlyTable s _ _
    · exact .refl s
  all_goals exact .refl s

theorem applyItem_onlyTable (s : State) (k : StationId) (i : SpanItem) : OnlyTable s (s.applyItem k i) := by
  unfold State.applyItem
  split
  · unfold State.applyOpen
    split
    · split
      · exact .refl s
      · exact insertOpen_onlyTable s k i
    · exact .refl s
  · unfold State.applyClose
    split
    · exact .refl s
    · split
      · exact insertEntry_onlyTable s _
      · split
        · dsimp only
          split
          · exact .trans (t := s.withSpans _) ⟨_, _, _, _, _, rfl⟩ (reopenAfterCustody_onlyTable _ _ _)
          · exact ⟨_, _, _, _, _, rfl⟩
        · exact .refl s

theorem applyBeaconEntry_onlyTable (s : State) (k : StationId) (i : SpanItem) :
    OnlyTable s (s.applyBeaconEntry k i) := by
  unfold State.applyBeaconEntry
  split
  · split
    · exact insertOpen_onlyTable s k i
    · split
      · exact ⟨_, _, _, _, _, rfl⟩
      all_goals exact .refl s
  · exact .refl s

/-- The span items and the beacons of a frame. -/
def State.takeSpans (s : State) (f : WindowFrame) : State :=
  f.beacons.foldl (fun s es => s.applyBeacon f.header.sender es)
    (f.spans.foldl (fun s i => s.applyItem f.header.sender i) s)

theorem takeSpans_onlyTable (s : State) (f : WindowFrame) : OnlyTable s (s.takeSpans f) :=
  (foldl_frame OnlyTable.refl OnlyTable.trans _ (fun s i => applyItem_onlyTable s _ i) _ _).trans
    (foldl_frame OnlyTable.refl OnlyTable.trans _ (fun s es => foldl_frame OnlyTable.refl OnlyTable.trans _
      (fun s i => applyBeaconEntry_onlyTable s _ i) es s) _ _)

theorem takeSpans_none {s : State} {f : WindowFrame} (hspans : f.spans = []) (hbeacons : f.beacons = []) :
    s.takeSpans f = s := by
  rw [State.takeSpans, hspans, hbeacons]
  rfl

/-! ### The lead-in's measurement (R8 to R11) -/

/-- The clock replaced, and notices raised. -/
def State.withTold (s : State) (c : Clock) (added : List Raised) : State :=
  { s with clock := c, raised := s.raised ++ added }

/-- A change that the clock alone decides, with what it raises. -/
def OnClock (f : State → State) (c : Clock) : Prop :=
  ∃ d added, ∀ s : State, s.clock = c → f s = s.withTold d added

theorem OnClock.silent {f : State → State} {c : Clock} (d : Clock)
    (h : ∀ s : State, s.clock = c → f s = s.withClock d) : OnClock f c := by
  refine ⟨d, [], fun s hs => (h s hs).trans ?_⟩
  unfold State.withTold
  rw [List.append_nil]
  rfl

theorem OnClock.told {f : State → State} {c : Clock} (d : Clock) (n : NoticeKind) (x : Nat) (w : Half)
    (h : ∀ s : State, s.clock = c → f s = (s.withClock d).raise .clock n x w) : OnClock f c :=
  ⟨d, [{ raiser := .clock, notice := { kind := n, slice := d.index, subject := byte x, detail := w } }], h⟩

/-- A measurement depends on the clock alone. -/
theorem measureFrame_onClock (c : Clock) (l : LeadIn) (k : StationId) (i : Slice) :
    OnClock (fun s => s.measureFrame l k i) c := by
  by_cases hlost : i ≠ (c.measure l k).2 ∨ 90 < (c.measure l k).1.natAbs
  · refine .told (c.enter .realign) .alignmentLost k.val
      (alignmentDetail (c.measure l k).1 (decide (i ≠ (c.measure l k).2))) fun s hs => ?_
    subst hs
    exact if_pos hlost
  · have hkept (s : State) (hs : s.clock = c) : s.measureFrame l k i =
        if c.discipline = .tracking then
          (s.withClock { c with trim := newTrim c.trim (c.measure l k).1 }).countGood k (c.measure l k).1
        else (s.withClock { c with trim := newTrim c.trim (c.measure l k).1 }).countBad k (c.measure l k).1 := by
      subst hs
      exact if_neg hlost
    generalize (c.measure l k).1 = e at hkept
    generalize ({ c with trim := newTrim c.trim e } : Clock) = d at hkept
    by_cases htracking : c.discipline = .tracking
    · simp only [if_pos htracking] at hkept
      by_cases hgood : e.natAbs ≤ 24
      · by_cases hlock : d.goodRun + 1 ≥ 8
        · exact .told (d.enter .locked) .locked k.val (signedDetail d.trim) fun s hs =>
            (hkept s hs).trans ((if_pos hgood).trans (if_pos hlock))
        · exact .silent { d with goodRun := d.goodRun + 1 } fun s hs =>
            (hkept s hs).trans ((if_pos hgood).trans (if_neg hlock))
      · exact .silent { d with goodRun := 0 } fun s hs => (hkept s hs).trans (if_neg hgood)
    · simp only [if_neg htracking] at hkept
      by_cases hbad : 48 < e.natAbs
      · by_cases hunlock : d.badRun + 1 ≥ 4
        · exact .told (d.enter .tracking) .unlocked k.val (signedDetail d.trim) fun s hs =>
            (hkept s hs).trans ((if_pos hbad).trans (if_pos hunlock))
        · exact .silent { d with badRun := d.badRun + 1 } fun s hs =>
            (hkept s hs).trans ((if_pos hbad).trans (if_neg hunlock))
      · exact .silent { d with badRun := 0 } fun s hs => (hkept s hs).trans (if_neg hbad)

/-- Two states of one clock measure alike. -/
theorem measureFrame_congr {s u : State} (hclock : u.clock = s.clock) (htold : Tells s u) (l : LeadIn)
    (k : StationId) (i : Slice) : (u.measureFrame l k i).clock = (s.measureFrame l k i).clock ∧
      ∀ r ∈ (s.measureFrame l k i).raised, r ∈ (u.measureFrame l k i).raised := by
  obtain ⟨d, added, h⟩ := measureFrame_onClock s.clock l k i
  dsimp only at h
  rw [h s rfl, h u hclock]
  refine ⟨rfl, fun r hr => ?_⟩
  obtain hr | hr := List.mem_append.mp hr
  · exact List.mem_append_left _ (htold.mem hr)
  · exact List.mem_append_right _ hr

/-! ### The reference's condition (R163) -/

section Front

variable {s : State} {h : Header}

theorem hearCondition_rest (s : State) (h : Header) : ∃ x p g, s.hearCondition h = { s with
    control := { s.control with correction := x, pendingCondition := p, followed := g } } := by
  unfold State.hearCondition
  dsimp only
  split
  · split
    · split
      · split <;> exact ⟨_, _, _, rfl⟩
      · exact ⟨_, _, _, rfl⟩
    · exact ⟨_, _, _, rfl⟩
  · exact ⟨_, _, _, rfl⟩

theorem hearCondition_of_inactive (hreference : s.roster.reference = some h.sender) (hinactive : s.active = false) :
    (s.hearCondition h).control = { s.control with followed := some h.condition } := by
  rw [State.hearCondition, if_pos hreference, if_neg (by rw [hinactive]; decide)]
  rfl

theorem hearCondition_of_armed (hreference : s.roster.reference = some h.sender) (hactive : s.active = true)
    (harmed : s.control.correction = true) : (s.hearCondition h).control = { s.control with
      correction := false
      pendingCondition := if h.condition ≠ s.control.condition then some h.condition
        else s.control.pendingCondition } := by
  rw [State.hearCondition, if_pos hreference, if_pos hactive, if_pos harmed]
  dsimp only
  split <;> rfl

/-! ### The lead-in (R13, R15, R52) -/

theorem clockFrame_of_reference {l : LeadIn} (hreference : s.roster.reference = some h.sender) :
    (s.clock.discipline = .tracking ∨ s.clock.discipline = .locked →
      s.clockFrame h l = s.measureFrame l h.sender h.index) ∧
    (s.clock.discipline = .realign → s.clock.plan = none →
      s.clockFrame h l = s.withClock { s.clock with plan := some (s.clock.planFrom l h.sender h.index) }) := by
  unfold State.clockFrame
  refine ⟨fun hd => ?_, fun hd hplan => ?_⟩
  · obtain hd | hd := hd <;> rw [hd] <;> exact if_pos hreference
  · rw [hd]
    exact if_pos ⟨hreference, hplan⟩

theorem lowerCapture_of_none {k : StationId} (hnone : ∀ j, j < k → (s.entry j).candidate = false) :
    s.lowerCapture k = false := by
  rw [State.lowerCapture, List.any_eq_false]
  intro j _ hj
  obtain ⟨hlt, hcandidate⟩ := of_decide_eq_true hj
  exact of_decide_eq_false (hnone j hlt) hcandidate

theorem clockFrame_of_free {l : LeadIn} (hfree : s.clock.discipline = .free) (hkind : h.kind = .capture)
    (hactivity : h.activity ≠ none) (haligned : s.clock.aligned = false) (hplan : s.clock.plan = none)
    (hlowest : ∀ j, j < h.sender → (s.entry j).candidate = false) :
    s.clockFrame h l = s.withClock { s.clock with plan := some (s.clock.planFrom l h.sender h.index) } := by
  unfold State.clockFrame
  rw [hfree]
  exact if_pos ⟨hkind, Option.isSome_iff_ne_none.mpr hactivity, haligned, hplan, lowerCapture_of_none hlowest⟩

theorem countGood_index (s : State) (k : StationId) (e : Int) : (s.countGood k e).clock.index = s.clock.index := by
  unfold State.countGood
  split
  · split <;> rfl
  · rfl

theorem countBad_index (s : State) (k : StationId) (e : Int) : (s.countBad k e).clock.index = s.clock.index := by
  unfold State.countBad
  split
  · split <;> rfl
  · rfl

theorem measureFrame_index (s : State) (l : LeadIn) (k : StationId) (i : Slice) :
    (s.measureFrame l k i).clock.index = s.clock.index := by
  unfold State.measureFrame
  dsimp only
  split
  · rfl
  · split
    · exact countGood_index _ k _
    · exact countBad_index _ k _

/-- A frame's lead-in leaves the slice in progress. -/
theorem clockLeadIn_index (s : State) (h : Header) (l : Option LeadIn) :
    (s.clockLeadIn h l).clock.index = s.clock.index := by
  cases l with
  | none => rfl
  | some l =>
    change (s.clockFrame h l).clock.index = _
    unfold State.clockFrame
    split
    · split <;> rfl
    · rfl
    · split
      · exact measureFrame_index s l _ _
      · rfl
    · split
      · exact measureFrame_index s l _ _
      · rfl
    · split <;> rfl

/-! ### The blocks (R108, R112) -/

theorem mirrorBlocks_rest (s : State) (k : StationId) (bs : List Block) : ∃ a g r,
    s.mirrorBlocks k bs = { s with rings := a, store := g, raised := r } := by
  unfold State.mirrorBlocks
  split
  · split
    · exact ⟨_, _, _, rfl⟩
    · obtain ⟨_, _, h⟩ := stageMirror_frame s (mirrorPageOf k _ bs)
      rw [h]
      exact ⟨_, _, _, rfl⟩
  · exact ⟨_, _, _, rfl⟩

theorem mirrorBlocks_none {k : StationId} (hmirror : s.roster.mirror = some k) : s.mirrorBlocks k [] = s.closeRun :=
  if_pos hmirror

theorem mirrorBlocks_some {k : StationId} (hmirror : s.roster.mirror = some k) (b : Block) (bs : List Block) :
    s.mirrorBlocks k (b :: bs) = s.stageMirror (mirrorPageOf k b.slice (b :: bs)) :=
  if_pos hmirror

theorem stageMirror_of_room (p : MirrorPage) (hroom : s.store.mirror.length < 2) :
    s.stageMirror p = s.withStore { s.store with mirror := s.store.mirror ++ [p] } :=
  if_pos hroom

theorem stageMirror_of_full (p : MirrorPage) {x y : MirrorPage} (hfull : s.store.mirror = [x, y]) :
    s.stageMirror p = (s.withStore { s.store with
      mirror := [if s.store.mirrorWrite = none then y else x, p], drops := s.store.drops + 1 }).raise .store
        .stagingOverflow 1 (sliceDetail (if s.store.mirrorWrite = none then x else y).slice) := by
  unfold State.stageMirror
  rw [hfull]
  cases s.store.mirrorWrite <;> rfl

end Front

/-! ### The stages -/

/-- The reference's condition, the lead-in and the blocks have been taken. -/
def State.takeFront (s : State) (f : WindowFrame) (l : Option LeadIn) : State :=
  ((s.hearCondition f.header).clockLeadIn f.header l).mirrorBlocks f.header.sender f.blocks

/-- What the condition, the lead-in and the blocks replace. -/
theorem takeFront_rest (s : State) (f : WindowFrame) (l : Option LeadIn) : ∃ a g r, s.takeFront f l = { s with
    clock := ((s.hearCondition f.header).clockLeadIn f.header l).clock
    control := (s.hearCondition f.header).control, rings := a, store := g, raised := r } := by
  obtain ⟨_, _, _, hblocks⟩ := mirrorBlocks_rest ((s.hearCondition f.header).clockLeadIn f.header l) f.header.sender
    f.blocks
  obtain ⟨_, _, hlead⟩ := clockLeadIn_frame (s.hearCondition f.header) f.header l
  obtain ⟨_, _, _, hcondition⟩ := hearCondition_rest s f.header
  rw [State.takeFront, hblocks, hlead, hcondition]
  exact ⟨_, _, _, rfl⟩

theorem takeFront_tells (s : State) (f : WindowFrame) (l : Option LeadIn) :
    Tells ((s.hearCondition f.header).clockLeadIn f.header l) (s.takeFront f l) := mirrorBlocks_tells _ _ _

end Sys2Proof.Machine
end


section
/-! SUPPORT. An accepted window frame behind its header (R52): what has become of the state in which the roster has
applied the header and made its selections. -/

namespace Sys2Proof.Machine

/-- The frame has been handed on, all but its claim: condition, lead-in, blocks, spans and requests. -/
def State.passed (s : State) (f : WindowFrame) (l : Option LeadIn) : State :=
  f.requests.foldl (fun s r => s.takeRequest f.header.sender r) ((s.takeFront f l).takeSpans f)

theorem acceptWindow_passed (s : State) (f : WindowFrame) (l : Option LeadIn) : s.acceptWindow f l =
    ((s.headed f.header (blockSlice f.blocks)).recompute.passed f l).hearClaim f.header := rfl

section Passed

variable (s : State) (f : WindowFrame) (l : Option LeadIn)

/-- What the condition, the lead-in, the blocks and the spans replace. -/
theorem spansTaken_rest : ∃ d t o n a g r, (s.takeFront f l).takeSpans f = { s with
    clock := ((s.hearCondition f.header).clockLeadIn f.header l).clock
    control := (s.hearCondition f.header).control
    spans := { s.spans with detectors := d, table := t, outbox := o, outboxDrops := n }
    rings := a, store := g, raised := r } := by
  obtain ⟨_, _, _, _, _, hspans⟩ := takeSpans_onlyTable (s.takeFront f l) f
  obtain ⟨_, _, _, hfront⟩ := takeFront_rest s f l
  rw [hspans, hfront]
  exact ⟨_, _, _, _, _, _, _, rfl⟩

theorem spansTaken_storage : ((s.takeFront f l).takeSpans f).store = (s.takeFront f l).store ∧
    ((s.takeFront f l).takeSpans f).rings = (s.takeFront f l).rings := by
  obtain ⟨_, _, _, _, _, hspans⟩ := takeSpans_onlyTable (s.takeFront f l) f
  rw [hspans]
  exact ⟨rfl, rfl⟩

theorem passed_requested : Requested f.header.sender ((s.takeFront f l).takeSpans f) (s.passed f l) :=
  takeRequests_requested _ _ _

/-- The mode and the ID have been left. -/
theorem spansTaken_active : ((s.takeFront f l).takeSpans f).active = s.active ∧
    ((s.takeFront f l).takeSpans f).control.id = s.control.id := by
  obtain ⟨_, _, _, _, _, _, _, h⟩ := spansTaken_rest s f l
  obtain ⟨_, _, _, hcondition⟩ := hearCondition_rest s f.header
  rw [h, hcondition]
  exact ⟨rfl, rfl⟩

theorem spansTaken_entries : SameEntries s ((s.takeFront f l).takeSpans f) := by
  obtain ⟨_, _, _, _, _, _, _, h⟩ := spansTaken_rest s f l
  exact .of_eq (by rw [h])

theorem passed_entries : SameEntries s (s.passed f l) :=
  (spansTaken_entries s f l).trans (passed_requested s f l).entries

theorem passed_rest : (s.passed f l).seat = s.seat ∧ (s.passed f l).link = s.link ∧
    (s.passed f l).control.id = s.control.id ∧ (s.passed f l).spans.custody = s.spans.custody ∧
    (s.passed f l).control.followed = (s.hearCondition f.header).control.followed ∧
    ((s.passed f l).roster.mirror = s.roster.mirror ∨ (s.passed f l).roster.mirror = none) := by
  have hrequested := passed_requested s f l
  obtain ⟨_, hid⟩ := spansTaken_active s f l
  obtain ⟨_, _, _, _, _, _, _, h⟩ := spansTaken_rest s f l
  refine ⟨?_, ?_, ?_, ?_, ?_, ?_⟩
  · rw [hrequested.seat, h]
  · rw [hrequested.link, h]
  · rw [hrequested.id, hid]
  · rw [hrequested.custody, h]
  · rw [hrequested.followed, h]
  · have hmirror := hrequested.mirror
    rwa [h] at hmirror

/-- A reference that has been chosen stays, and the clock changes by the lead-in and the mark alone. -/
theorem passed_clock (hchosen : s.roster.reference = s.chooseReference) :
    (s.passed f l).roster.reference = s.roster.reference ∧
    (s.passed f l).clock = { ((s.hearCondition f.header).clockLeadIn f.header l).clock with
      mark := (s.passed f l).clock.mark } := by
  have hrequested := passed_requested s f l
  obtain ⟨hactive, hid⟩ := spansTaken_active s f l
  have hchoose := (spansTaken_entries s f l).chooseReference hid hactive
  obtain ⟨_, _, _, _, _, _, _, h⟩ := spansTaken_rest s f l
  have hkept := hrequested.reference (by rw [hchoose, h]; exact hchosen)
  rw [h] at hkept
  exact hkept

/-- The spans of a frame that carries none. -/
theorem passed_spans (hspans : f.spans = []) (hbeacons : f.beacons = []) :
    (s.passed f l).spans.table = s.spans.table ∧ (s.passed f l).spans.outbox = s.spans.outbox := by
  have hrequested := passed_requested s f l
  obtain ⟨_, _, _, h⟩ := takeFront_rest s f l
  have htable := hrequested.table
  have houtbox := hrequested.outbox
  rw [takeSpans_none hspans hbeacons, h] at htable houtbox
  exact ⟨htable, houtbox⟩

theorem passed_queue (hrequests : f.requests = []) : (s.passed f l).server.queue = s.server.queue := by
  obtain ⟨_, _, _, _, _, _, _, h⟩ := spansTaken_rest s f l
  rw [State.passed, hrequests, List.foldl_nil, h]

/-- Another sender's requests than a console's leave the controller. -/
theorem passed_control (hconsole : s.fromConsole f.header.sender = false) :
    (s.passed f l).control = (s.hearCondition f.header).control := by
  have hrequested := passed_requested s f l
  obtain ⟨_, hid⟩ := spansTaken_active s f l
  have hsame := (spansTaken_entries s f l).fromConsole hid f.header.sender
  rw [hrequested.console (hsame.trans hconsole)]
  obtain ⟨_, _, _, _, _, _, _, h⟩ := spansTaken_rest s f l
  rw [h]

/-- In RUN and IDLE the blocks' staging and their runs are left. -/
theorem passed_storage (hactive : s.active = true) : (s.passed f l).store = (s.takeFront f l).store ∧
    (s.passed f l).rings.runs = (s.takeFront f l).rings.runs := by
  obtain ⟨hstore, hruns, -⟩ := (passed_requested s f l).storage ((spansTaken_active s f l).1.trans hactive)
  obtain ⟨hstore', hrings⟩ := spansTaken_storage s f l
  exact ⟨hstore.trans hstore', hruns.trans (congrArg Rings.runs hrings)⟩

theorem passed_tells : Tells (s.takeFront f l) (s.passed f l) :=
  (foldl_tells (fun s i => applyItem_tells s _ i) _ _).trans
    ((foldl_tells (fun s es => applyBeacon_tells s _ es) _ _).trans
      (foldl_tells (fun s r => takeRequest_tells s _ r) _ _))

theorem front_tells : Tells s ((s.hearCondition f.header).clockLeadIn f.header l) :=
  (Tells.of_eq (hearCondition_raised s f.header)).trans (clockLeadIn_tells _ _ _)

theorem passed_tells_all : Tells s (s.passed f l) :=
  ((front_tells s f l).trans (takeFront_tells s f l)).trans (passed_tells s f l)

end Passed

end Sys2Proof.Machine
end


section
/-! SUPPORT. An accepted window frame from its header to its claim (R51, R52, R60): the roster's part, and the
state that the command's end finds. -/

namespace Sys2Proof.Machine

/-! ### The roster's part -/

section Applied

variable (s : State) (h : Header) (t : Option Slice)

/-- What applying a header leaves and replaces. -/
theorem applied_rest : ∃ c a g r, s.applyHeader h t = { s with
    clock := c
    roster := { entries := put s.roster.entries h.sender (s.headedEntry h t)
                reference := (s.headed h t).chooseReference, mirror := (s.headed h t).chooseMirror }
    spans := (s.headed h t).spans, rings := a, server := (s.headed h t).server
    control := { s.control with correction := g }, raised := r } := by
  have hroster := recompute_roster (s.headed h t)
  obtain ⟨_, _, _, _, _, _, hselected⟩ := recompute_frame (s.headed h t)
  obtain ⟨_, _, _, _, hheaded⟩ := headed_rest s h t
  rw [hselected] at hroster
  rw [applyHeader_eq, hselected]
  dsimp only at hroster ⊢
  rw [hroster]
  generalize (s.headed h t).chooseReference = x
  generalize (s.headed h t).chooseMirror = y
  rw [hheaded]
  exact ⟨_, _, _, _, rfl⟩

theorem applied_active : (s.applyHeader h t).active = s.active := by
  obtain ⟨_, _, _, _, happlied⟩ := applied_rest s h t
  rw [happlied]
  rfl

theorem headed_active : (s.headed h t).active = s.active := by
  obtain ⟨_, _, _, _, hheaded⟩ := headed_rest s h t
  rw [hheaded]
  rfl

/-- The reference is the one that R66 chooses. -/
theorem applied_chosen :
    (s.applyHeader h t).roster.reference = (s.applyHeader h t).chooseReference := by
  have hroster := recompute_roster (s.headed h t)
  have hentries : SameEntries (s.headed h t) (s.headed h t).recompute := .of_eq (by rw [hroster])
  rw [applyHeader_eq, hentries.chooseReference (recompute_id _) (recompute_active _), hroster]

/-- A mirror source is there in RUN and IDLE alone. -/
theorem applied_mirror {k : StationId} (hmirror : (s.applyHeader h t).roster.mirror = some k) : s.active = true := by
  refine Bool.eq_true_of_not_eq_false fun hinactive => ?_
  have hnone := chooseMirror_of_inactive ((headed_active s h t).trans hinactive)
  rw [applyHeader_eq, recompute_roster] at hmirror
  exact nomatch hnone.symm.trans hmirror

/-- The join correction stays armed when the reference is another station. -/
theorem applied_control {k : StationId} (hreference : (s.applyHeader h t).roster.reference = some k)
    (hother : k ≠ s.control.id) : (s.applyHeader h t).control = s.control := by
  have hcontrol := recompute_control (s.headed h t)
  obtain ⟨_, _, _, _, hheaded⟩ := headed_rest s h t
  have hsame : (s.headed h t).control = s.control := by rw [hheaded]
  rw [applyHeader_eq] at hreference ⊢
  rw [hcontrol, hsame, hreference]
  have hne : decide (some k ≠ some s.control.id) = true := decide_eq_true fun h => hother (Option.some.inj h)
  rw [hne, Bool.and_true]

/-- The clock does not react to a header that leaves the reference. -/
theorem applied_clock_same (hsame : (s.applyHeader h t).roster.reference = s.roster.reference) :
    (s.applyHeader h t).clock = s.clock := by
  obtain ⟨_, _, _, _, hheaded⟩ := headed_rest s h t
  have hclock : (s.headed h t).clock = s.clock := by rw [hheaded]
  have hreference : (s.headed h t).roster.reference = s.roster.reference := by rw [hheaded]
  rw [applyHeader_eq, recompute_roster] at hsame
  rw [applyHeader_eq, recompute_clock_same (hsame.trans hreference.symm), hclock]

/-- In FREE the clock does not react to the selections (R6). -/
theorem applied_clock_free (hfree : s.clock.discipline = .free) : (s.applyHeader h t).clock = s.clock := by
  obtain ⟨_, _, _, _, hheaded⟩ := headed_rest s h t
  have hclock : (s.headed h t).clock = s.clock := by rw [hheaded]
  rw [applyHeader_eq, recompute_clock_of_free (by rw [hclock]; exact hfree), hclock]

theorem applied_index : (s.applyHeader h t).clock.index = s.clock.index := by
  obtain ⟨_, _, _, _, hheaded⟩ := headed_rest s h t
  have hclock : (s.headed h t).clock = s.clock := by rw [hheaded]
  obtain ⟨_, _, _, _, _, hsame⟩ := recompute_sameTime (s.headed h t)
  rw [applyHeader_eq, hsame, hclock]

end Applied

/-! ### The claim (R54) -/

theorem hearClaim_rest (s : State) (h : Header) : ∃ c, s.hearClaim h = s.withLink { s.link with claims := c } ∧
    ∀ j, j ∈ c ↔ j ∈ s.link.claims ∨ (h.claim = true ∧ j = h.sender) := by
  unfold State.hearClaim
  split
  · next hnew =>
    refine ⟨_, rfl, fun j => ?_⟩
    rw [List.mem_append, List.mem_singleton]
    simp [hnew.1]
  · next hold =>
    refine ⟨s.link.claims, rfl, fun j => ⟨.inl, fun hj => hj.elim id fun ⟨hclaim, hsender⟩ => ?_⟩⟩
    rw [hsender]
    exact Classical.byContradiction fun hmem => hold ⟨hclaim, hmem⟩

/-! ### The hearing's cases -/

/-- A header that shows another incarnation than the entry's (R60). -/
theorem hearing_isNew_iff (e : RosterEntry) (h : Header) : (e.hearing h).isNew = true ↔
    e.state ≠ .absent ∧ ¬ (e.join = some h.join ∧ e.kind = some h.kind) := by
  unfold RosterEntry.hearing
  dsimp only
  cases e.state <;> by_cases hsame : e.join = some h.join ∧ e.kind = some h.kind <;>
    simp [hsame, Hearing.isNew]

theorem hearing_absent {e : RosterEntry} (h : Header) (habsent : e.state = .absent) : e.hearing h = .first := by
  rw [RosterEntry.hearing, habsent]

theorem hearing_lost {e : RosterEntry} {h : Header} (hlost : e.state = .lost) :
    (e.join = some h.join ∧ e.kind = some h.kind → e.hearing h = .returned) ∧
    (¬ (e.join = some h.join ∧ e.kind = some h.kind) → e.hearing h = .newAfterLoss) := by
  rw [RosterEntry.hearing, hlost]
  exact ⟨fun hsame => if_pos (decide_eq_true hsame), fun hother => if_neg (by simp [hother])⟩

theorem hearing_present {e : RosterEntry} {h : Header} (hpresent : e.state = .present)
    (hother : ¬ (e.join = some h.join ∧ e.kind = some h.kind)) : e.hearing h = .newPresent := by
  rw [RosterEntry.hearing, hpresent]
  exact if_neg (by simp [hother])

end Sys2Proof.Machine
end


section
/-! SUPPORT. An accepted window frame of another station, from its bytes to the state that the command's end finds
(R51, R52): field by field. -/

namespace Sys2Proof.Machine

/-! ### The frame's effect before the command's end -/

/-- The roster has applied the header and made its selections, the receiver hunting. -/
def State.applied (s : State) (f : WindowFrame) : State :=
  (s.withLink s.link.hunt).applyHeader f.header (blockSlice f.blocks)

/-- The whole of the frame has been handed to its owners. -/
def State.accepted (s : State) (f : WindowFrame) : State :=
  (s.withLink s.link.hunt).acceptWindow f s.link.leadIn

/-- The header has been applied, but for the selections. -/
def State.entered (s : State) (f : WindowFrame) : State :=
  (s.withLink s.link.hunt).headed f.header (blockSlice f.blocks)

theorem exec_windowFrame {bs : List Byte} {f : WindowFrame} {s : State} (hreset : s.resetN = true)
    (hrx : s.link.rx = .receiving) (hjudged : judgeFrame s.control.id bs = .windowFrame f) :
    exec (.frameReceived bs) s = .next (s.accepted f).finish := by
  rw [exec_frameReceived bs s hreset hrx]
  simp only [State.receive, hjudged]
  rfl

section Accepted

variable {s : State} {f : WindowFrame}

theorem applied_fields (s : State) (f : WindowFrame) :
    (s.applied f).seat = s.seat ∧ (s.applied f).link = s.link.hunt ∧ (s.applied f).store = s.store ∧
    (s.applied f).control.id = s.control.id ∧ (s.applied f).active = s.active ∧
    (s.applied f).spans = (s.entered f).spans ∧ (s.applied f).server = (s.entered f).server ∧
    (s.applied f).roster.entries = put s.roster.entries f.header.sender
      ((s.withLink s.link.hunt).headedEntry f.header (blockSlice f.blocks)) := by
  have hactive := applied_active (s.withLink s.link.hunt) f.header (blockSlice f.blocks)
  obtain ⟨_, _, _, _, h⟩ := applied_rest (s.withLink s.link.hunt) f.header (blockSlice f.blocks)
  rw [← State.applied] at h hactive
  refine ⟨?_, ?_, ?_, ?_, hactive, ?_, ?_, ?_⟩ <;> rw [h] <;> rfl

/-- The frame's effect: what has passed, and the claim. -/
theorem accepted_rest (s : State) (f : WindowFrame) : ∃ c, s.accepted f =
      ((s.applied f).passed f s.link.leadIn).withLink { s.link.hunt with claims := c } ∧
    ∀ j, j ∈ c ↔ j ∈ s.link.claims ∨ (f.header.claim = true ∧ j = f.header.sender) := by
  obtain ⟨-, hlink, -⟩ := passed_rest (s.applied f) f s.link.leadIn
  obtain ⟨-, hhunt, -⟩ := applied_fields s f
  obtain ⟨c, hclaim, hmem⟩ := hearClaim_rest ((s.applied f).passed f s.link.leadIn) f.header
  rw [hlink, hhunt] at hclaim hmem
  exact ⟨c, (acceptWindow_passed _ f _).trans hclaim, hmem⟩

/-- The sender's entry (R61). -/
theorem accepted_entry (hother : f.header.sender ≠ s.control.id) : ∃ g,
    look (s.accepted f).roster.entries f.header.sender =
      { (s.withLink s.link.hunt).heardEntry (look s.roster.entries f.header.sender) f.header
          ((look s.roster.entries f.header.sender).hearing f.header) (blockSlice f.blocks) with agreement := g } := by
  obtain ⟨_, haccepted, -⟩ := accepted_rest s f
  obtain ⟨-, -, -, -, -, -, -, hentries⟩ := applied_fields s f
  obtain ⟨g, hg⟩ := passed_entries (s.applied f) f s.link.leadIn f.header.sender
  have hentry : (s.withLink s.link.hunt).entry f.header.sender = look s.roster.entries f.header.sender :=
    if_neg hother
  rw [haccepted]
  refine ⟨g, hg.trans ?_⟩
  rw [hentries, look_put, if_pos rfl, State.headedEntry, hentry]

/-- The reference is the one chosen behind the header, and the clock has changed by the lead-in and the mark. -/
theorem accepted_clock (s : State) (f : WindowFrame) :
    (s.accepted f).roster.reference = (s.applied f).roster.reference ∧
    (s.accepted f).clock = { (((s.applied f).hearCondition f.header).clockLeadIn f.header s.link.leadIn).clock with
      mark := (s.accepted f).clock.mark } := by
  obtain ⟨_, haccepted, -⟩ := accepted_rest s f
  have hclock := passed_clock (s.applied f) f s.link.leadIn (applied_chosen _ _ _)
  rw [haccepted]
  exact hclock

theorem accepted_tells (s : State) (f : WindowFrame) :
    Tells ((s.applied f).passed f s.link.leadIn) (s.accepted f) := by
  obtain ⟨_, haccepted, -⟩ := accepted_rest s f
  exact .of_eq (by rw [haccepted, withLink_raised])

/-- The reference is a capture peer, so the sender is no console. -/
theorem applied_not_console
    (hreference : (s.applied f).roster.reference = some f.header.sender) :
    (s.applied f).fromConsole f.header.sender = false := by
  have hchosen := (applied_chosen (s.withLink s.link.hunt) f.header (blockSlice f.blocks)).symm.trans hreference
  have hcandidate := (find_allIds hchosen).1
  refine fromConsole_of_ne fun hconsole => ?_
  obtain ⟨-, hcapture, -⟩ := of_decide_eq_true hcandidate
  exact nomatch hcapture.symm.trans hconsole

/-! ### The clock -/

theorem planFrom_eq (c : Clock) (l : LeadIn) (k : StationId) (i : Slice) : c.planFrom l k i =
    { count := l.count + 240000 - (1200 + 10800 * k.val) -
        (if l.boundaries = 0 then 0 else if l.boundaries = 1 then c.lastLen else c.lastLen + c.prevLen)
      index := i + 1 } := by
  have hcounts : c.countsSince l.boundaries =
      if l.boundaries = 0 then 0 else if l.boundaries = 1 then c.lastLen else c.lastLen + c.prevLen := by
    unfold Clock.countsSince
    split
    · next h => rw [if_pos h]
    · next h => rw [h]; rfl
    · next h0 h1 => rw [if_neg h0, if_neg h1]
  rw [Clock.planFrom, hcounts]
  rfl

/-- The state in which the lead-in is taken. -/
def State.conditioned (s : State) (f : WindowFrame) : State := (s.applied f).hearCondition f.header

theorem conditioned_fields (s : State) (f : WindowFrame) : (s.conditioned f).clock = (s.applied f).clock ∧
    (s.conditioned f).roster = (s.applied f).roster ∧ (s.conditioned f).store = s.store ∧
    (s.conditioned f).control.id = s.control.id ∧ (s.conditioned f).active = s.active := by
  obtain ⟨-, -, hstore, hid, hactive, -⟩ := applied_fields s f
  obtain ⟨_, _, _, h⟩ := hearCondition_rest (s.applied f) f.header
  rw [State.conditioned, h]
  exact ⟨rfl, rfl, hstore, hid, hactive⟩

theorem conditioned_tells (s : State) (f : WindowFrame) : Tells s (s.conditioned f) :=
  .trans (t := s.withLink s.link.hunt) (.of_eq rfl)
    ((applyHeader_tells _ _ _).trans (.of_eq (hearCondition_raised (s.applied f) f.header)))

theorem passedFront_tells (s : State) (f : WindowFrame) (l : Option LeadIn) :
    Tells (((s.applied f).hearCondition f.header).clockLeadIn f.header l) ((s.applied f).passed f l) :=
  (takeFront_tells _ f l).trans (passed_tells _ f l)

section Clock

variable {l : LeadIn} (hlead : s.link.leadIn = some l)

include hlead

/-- The lead-in as the clock takes it. -/
theorem accepted_lead : (s.accepted f).clock = { ((s.conditioned f).clockFrame f.header l).clock with
    mark := (s.accepted f).clock.mark } ∧
    Tells ((s.conditioned f).clockFrame f.header l) (s.accepted f) := by
  have hclock := (accepted_clock s f).2
  have htells := (passedFront_tells s f s.link.leadIn).trans (accepted_tells s f)
  rw [hlead] at hclock htells
  exact ⟨hclock, htells⟩

variable (hs : s.roster.reference = some f.header.sender)
  (ht : (s.accepted f).roster.reference = some f.header.sender)

include hs ht

omit hlead in
theorem conditioned_of_reference : (s.conditioned f).clock = s.clock ∧
    (s.conditioned f).roster.reference = some f.header.sender := by
  obtain ⟨hclock, hroster, -⟩ := conditioned_fields s f
  have happlied : (s.applied f).roster.reference = some f.header.sender := (accepted_clock s f).1.symm.trans ht
  refine ⟨hclock.trans ?_, by rw [hroster]; exact happlied⟩
  exact applied_clock_same (s.withLink s.link.hunt) _ _ (happlied.trans hs.symm)

/-- The reference's frame in TRACKING and LOCKED is measured (R8). -/
theorem accepted_measured (hd : s.clock.discipline = .tracking ∨ s.clock.discipline = .locked) :
    (s.accepted f).clock = { (s.measureFrame l f.header.sender f.header.index).clock with
      mark := (s.accepted f).clock.mark } ∧
    ∀ r ∈ (s.measureFrame l f.header.sender f.header.index).raised, r ∈ (s.accepted f).raised := by
  obtain ⟨hclock, hreference⟩ := conditioned_of_reference hs ht
  obtain ⟨hmeasured, htells⟩ := accepted_lead (f := f) hlead
  rw [(clockFrame_of_reference (l := l) hreference).1 (by rw [hclock]; exact hd)] at hmeasured htells
  obtain ⟨hsame, htold⟩ := measureFrame_congr hclock (conditioned_tells s f) l f.header.sender f.header.index
  rw [hsame] at hmeasured
  exact ⟨hmeasured, fun r hr => htells.mem (htold r hr)⟩

/-- The reference's frame in REALIGN gives the step plan (R13). -/
theorem accepted_realigned (hd : s.clock.discipline = .realign) (hplan : s.clock.plan = none) :
    (s.accepted f).clock = { s.clock with
      plan := some (s.clock.planFrom l f.header.sender f.header.index), mark := (s.accepted f).clock.mark } := by
  obtain ⟨hclock, hreference⟩ := conditioned_of_reference hs ht
  have hplanned := (accepted_lead (f := f) hlead).1
  rw [(clockFrame_of_reference (l := l) hreference).2 (by rw [hclock]; exact hd) (by rw [hclock]; exact hplan),
    withClock_clock, hclock] at hplanned
  exact hplanned

end Clock

/-- A capture peer's frame in FREE gives the step plan of the join alignment (R15). -/
theorem accepted_joining {l : LeadIn} (hlead : s.link.leadIn = some l) (hfree : s.clock.discipline = .free)
    (hkind : f.header.kind = .capture) (hactivity : f.header.activity ≠ none) (haligned : s.clock.aligned = false)
    (hplan : s.clock.plan = none) (hlowest : ∀ j, j < f.header.sender → (s.entry j).candidate = false) :
    (s.accepted f).clock = { s.clock with
      plan := some (s.clock.planFrom l f.header.sender f.header.index), mark := (s.accepted f).clock.mark } := by
  obtain ⟨hclock', hroster, -, hid, hactive⟩ := conditioned_fields s f
  obtain ⟨-, -, -, -, -, -, -, hentries⟩ := applied_fields s f
  have hclock : (s.conditioned f).clock = s.clock :=
    hclock'.trans (applied_clock_free (s.withLink s.link.hunt) _ _ hfree)
  have hplanned := (accepted_lead (f := f) hlead).1
  rw [clockFrame_of_free (by rw [hclock]; exact hfree) hkind hactivity (by rw [hclock]; exact haligned)
    (by rw [hclock]; exact hplan), withClock_clock, hclock] at hplanned
  · exact hplanned
  · intro j hj
    refine (candidate_congr hid hactive fun _ => ?_).trans (hlowest j hj)
    rw [hroster, hentries, look_put, if_neg (ne_of_lt hj)]

/-! ### The mirror path -/

section Mirror

variable (hmirror : (s.accepted f).roster.mirror = some f.header.sender)

include hmirror

/-- The blocks come to the mirror path, in RUN or IDLE, and what it does with them stays. -/
theorem accepted_mirrored : ∃ u : State, u.roster.mirror = some f.header.sender ∧ u.store = s.store ∧
    u.clock.index = s.clock.index ∧
    (s.accepted f).store = (u.mirrorBlocks f.header.sender f.blocks).store ∧
    (s.accepted f).rings.runs = (u.mirrorBlocks f.header.sender f.blocks).rings.runs ∧
    Tells (u.mirrorBlocks f.header.sender f.blocks) (s.accepted f) := by
  obtain ⟨_, haccepted, -⟩ := accepted_rest s f
  obtain ⟨-, -, -, -, -, hpassed⟩ := passed_rest (s.applied f) f s.link.leadIn
  obtain ⟨-, -, -, -, hactive, -⟩ := applied_fields s f
  have hkept : (s.applied f).roster.mirror = some f.header.sender := by
    rw [haccepted] at hmirror
    obtain hsame | hnone := hpassed
    · exact hsame.symm.trans hmirror
    · exact nomatch hnone.symm.trans hmirror
  have hworking : s.active = true := applied_mirror (s.withLink s.link.hunt) _ _ hkept
  obtain ⟨hstore, hruns⟩ := passed_storage (s.applied f) f s.link.leadIn (hactive.trans hworking)
  obtain ⟨hclock, hroster, hstore', -⟩ := conditioned_fields s f
  obtain ⟨_, _, hlead⟩ := clockLeadIn_frame (s.conditioned f) f.header s.link.leadIn
  refine ⟨(s.conditioned f).clockLeadIn f.header s.link.leadIn, ?_, ?_, ?_, ?_, ?_, ?_⟩
  · rw [hlead]
    exact (congrArg Roster.mirror hroster).trans hkept
  · rw [hlead]
    exact hstore'
  · rw [clockLeadIn_index, hclock]
    exact applied_index (s.withLink s.link.hunt) _ _
  · rw [haccepted]
    exact hstore
  · rw [haccepted]
    exact hruns
  · exact (passed_tells _ f s.link.leadIn).trans (accepted_tells s f)

/-- The first page of an empty mirror staging. -/
theorem accepted_page {b : Block} {rest : List Block} (hblocks : f.blocks = b :: rest) (hempty : s.store.mirror = []) :
    (s.accepted f).store.mirror = [mirrorPageOf f.header.sender b.slice f.blocks] := by
  obtain ⟨u, humirror, hustore, -, hstore, -, -⟩ := accepted_mirrored hmirror
  rw [hstore, hblocks, mirrorBlocks_some humirror, stageMirror_of_room _ (by rw [hustore, hempty]; decide),
    withStore_store, hustore, hempty]
  rfl

/-- A full mirror staging loses its oldest page whose write has not begun (R136). -/
theorem accepted_displaced {x y : MirrorPage} (hblocks : f.blocks ≠ []) (hfull : s.store.mirror = [x, y]) :
    (∃ p, (s.accepted f).store.mirror = [if s.store.mirrorWrite = none then y else x, p]) ∧
    (s.accepted f).store.drops = s.store.drops + 1 ∧
    ({ raiser := .store
       notice := { kind := .stagingOverflow, slice := s.clock.index, subject := 1
                   detail := sliceDetail (if s.store.mirrorWrite = none then x else y).slice } } : Raised) ∈
      (s.accepted f).raised := by
  obtain ⟨u, humirror, hustore, hindex, hstore, -, htells⟩ := accepted_mirrored hmirror
  obtain ⟨b, rest, hcons⟩ := List.exists_cons_of_ne_nil hblocks
  rw [hcons, mirrorBlocks_some humirror, stageMirror_of_full _ (by rw [hustore]; exact hfull), hustore] at hstore htells
  refine ⟨⟨_, congrArg Store.mirror hstore⟩, congrArg Store.drops hstore,
    htells.mem (List.mem_append_right _ (List.mem_singleton.mpr ?_))⟩
  rw [← hindex]
  rfl

/-- A frame without blocks closes the OPEN run (R112). -/
theorem accepted_closed (hblocks : f.blocks = []) : ∀ r ∈ (s.accepted f).rings.runs, r.isOpen = false := by
  obtain ⟨u, humirror, -, -, -, hruns, -⟩ := accepted_mirrored hmirror
  rw [hruns, hblocks, mirrorBlocks_none humirror]
  intro r hr
  obtain ⟨x, -, rfl⟩ := List.mem_map.mp hr
  rfl

end Mirror

theorem mirrorPageOf_slots (k : StationId) (u : Slice) (bs : List Block) (l : Lane) :
    (mirrorPageOf k u bs).slots[l.val]? = some (bs.find? fun x => decide (x.lane = l)) :=
  (List.getElem?_map ..).trans (congrArg _ (getElem_allLanes l))

/-- With ST_WAIT held no grant follows the frame. -/
theorem accepted_held (hwait : s.stWait = true) : (s.accepted f).finish.store = (s.accepted f).store ∧
    (s.accepted f).finish.rings = (s.accepted f).rings := by
  have hheld : (s.accepted f).stWait = true :=
    (acceptWindow_frame (s.withLink s.link.hunt) f s.link.leadIn).stWait.trans hwait
  rw [finish_held hheld]
  exact ⟨rfl, rfl⟩

/-! ### The spans, the custody and the recall queue -/

theorem entered_hearing (hother : f.header.sender ≠ s.control.id) :
    (s.withLink s.link.hunt).entry f.header.sender = look s.roster.entries f.header.sender := if_neg hother

theorem accepted_spans (s : State) (f : WindowFrame) :
    (s.accepted f).spans.custody = (s.entered f).spans.custody ∧
    (f.spans = [] → f.beacons = [] → (s.accepted f).spans.table = (s.entered f).spans.table ∧
      (s.accepted f).spans.outbox = (s.entered f).spans.outbox) ∧
    (f.requests = [] → (s.accepted f).server.queue = (s.entered f).server.queue) := by
  obtain ⟨_, haccepted, -⟩ := accepted_rest s f
  obtain ⟨-, -, -, -, -, hspans, hserver, -⟩ := applied_fields s f
  obtain ⟨-, -, -, hcustody, -⟩ := passed_rest (s.applied f) f s.link.leadIn
  rw [haccepted, ← hspans, ← hserver]
  exact ⟨hcustody, passed_spans _ f _, passed_queue _ f _⟩

/-- PEER_JOINED is raised with the slice in progress (R60). -/
theorem accepted_joined (hother : f.header.sender ≠ s.control.id) {d : Half}
    (hdetail : ((look s.roster.entries f.header.sender).hearing f.header).detail = some d) :
    ({ raiser := .roster, notice := { kind := .peerJoined, slice := s.clock.index
                                      subject := byte f.header.sender.val, detail := d } } : Raised) ∈
      (s.accepted f).raised := by
  have hjoined := headed_joined (s := s.withLink s.link.hunt) (h := f.header) (blockSlice f.blocks) (d := d)
    (by rw [entered_hearing hother]; exact hdetail)
  have hselected : Tells (s.entered f) (s.applied f) := recompute_tells _
  exact (accepted_tells s f).mem ((passed_tells_all _ f _).mem (hselected.mem hjoined))

/-! ### The controller -/

section Control

variable (hother : f.header.sender ≠ s.control.id)
  (ht : (s.accepted f).roster.reference = some f.header.sender)

include hother ht

theorem applied_of_reference : (s.applied f).roster.reference = some f.header.sender ∧
    (s.applied f).control = s.control := by
  have happlied : (s.applied f).roster.reference = some f.header.sender := (accepted_clock s f).1.symm.trans ht
  exact ⟨happlied, applied_control (s.withLink s.link.hunt) _ _ happlied hother⟩

/-- Outside RUN and IDLE the reference's condition is followed (R163). -/
theorem accepted_followed (hinactive : s.active = false) :
    (s.accepted f).control.followed = some f.header.condition := by
  obtain ⟨happlied, -⟩ := applied_of_reference hother ht
  obtain ⟨_, haccepted, -⟩ := accepted_rest s f
  obtain ⟨-, -, -, -, hfollowed, -⟩ := passed_rest (s.applied f) f s.link.leadIn
  obtain ⟨-, -, -, -, hactive, -⟩ := applied_fields s f
  rw [haccepted, withLink_control, hfollowed, hearCondition_of_inactive happlied (hactive.trans hinactive)]

/-- In RUN and IDLE the reference's condition ends the join correction (R163). -/
theorem accepted_corrected (hactive : s.active = true) (harmed : s.control.correction = true) :
    (s.accepted f).control.correction = false ∧ (s.accepted f).control.pendingCondition =
      if f.header.condition ≠ s.control.condition then some f.header.condition
      else s.control.pendingCondition := by
  obtain ⟨happlied, hcontrol⟩ := applied_of_reference hother ht
  obtain ⟨_, haccepted, -⟩ := accepted_rest s f
  obtain ⟨-, -, -, -, hsame, -⟩ := applied_fields s f
  have hpassed := passed_control (s.applied f) f s.link.leadIn (applied_not_console happlied)
  rw [hearCondition_of_armed happlied (hsame.trans hactive) (by rw [hcontrol]; exact harmed), hcontrol] at hpassed
  rw [haccepted, withLink_control, hpassed]
  exact ⟨rfl, rfl⟩

end Control

end Accepted

end Sys2Proof.Machine
end


section
/-! PROOF. O50: an accepted window frame of another station (R52, R54, R60 to R62, R99, R100, R108, R163). -/

namespace Sys2Proof.Machine

/-- Settles O50: the sender's entry, the link, the notices, the reports of R62 and R99, the clock, the mirror path and
the controller, each by the lemma on the frame's effect. -/
theorem windowFrameAccepted : Obligations.WindowFrameAccepted := by
  intro bs f s hreset hrx hjudged k e same isNew joined since plan
  have hother := sender_other hjudged
  obtain ⟨c, haccepted, hclaims⟩ := accepted_rest s f
  obtain ⟨hpseat, -, hpid, -⟩ := passed_rest (s.applied f) f s.link.leadIn
  obtain ⟨hseat, -, -, hid, -⟩ := applied_fields s f
  obtain ⟨g, hentry⟩ := accepted_entry (s := s) (f := f) hother
  have hframe := acceptWindow_frame (s.withLink s.link.hunt) f s.link.leadIn
  have hlink : (s.accepted f).link = { s.link.hunt with claims := c } := by rw [haccepted, withLink_link]
  refine ⟨s.accepted f, (s.accepted f).finish, exec_windowFrame hreset hrx hjudged, rfl, hframe.notices, ?_⟩
  simp only [finish_roster, finish_link, finish_seat, finish_dram, finish_pending, finish_stWait, finish_stopN,
    finish_resetN, finish_control, finish_clock, finish_spans, finish_queue]
  rw [hentry, hlink]
  refine ⟨rfl, rfl, rfl, rfl, rfl, rfl, rfl, rfl, rfl, fun b rest hblocks => ?_, fun hblocks => ?_, hclaims, rfl, ?_,
    hframe.dram, hframe.pending, hframe.stWait, hframe.stopN, hframe.resetN, ?_, fun habsent => ?_,
    fun hlost hsame => ?_, fun hlost hdiffers => ?_, fun hpresent hdiffers => ?_, fun hnew => ?_,
    fun hlost hsame hspans hbeacons => ?_, fun l hlead hs ht hd => ?_, fun l hlead hs ht hd hplan => ?_,
    fun l hlead hfree hkind hactivity haligned hplan hlowest => ?_, fun hmirror hwait => ?_, fun ht hinactive => ?_,
    fun ht hactive harmed => ?_⟩
  · simp only [State.heardEntry, hblocks, blockSlice]
  · simp only [State.heardEntry, hblocks, blockSlice]
    split
    · next hnew => exact .inr ((hearing_isNew_iff e f.header).mp hnew)
    · exact .inl rfl
  · rw [haccepted]
    exact hpseat.trans hseat
  · rw [haccepted]
    exact hpid.trans hid
  · exact accepted_joined hother (congrArg Hearing.detail (hearing_absent f.header habsent))
  · exact accepted_joined hother (congrArg Hearing.detail ((hearing_lost hlost).1 hsame))
  · exact accepted_joined hother (congrArg Hearing.detail ((hearing_lost hlost).2 hdiffers))
  · exact accepted_joined hother (congrArg Hearing.detail (hearing_present hpresent hdiffers))
  · obtain ⟨hcustody, hspans, hrequests⟩ := accepted_spans s f
    have hcase := (hearing_isNew_iff e f.header).mpr hnew
    obtain ⟨hentered, hqueue⟩ := headed_spans_new (s := s.withLink s.link.hunt) (h := f.header)
      (blockSlice f.blocks) (by rw [entered_hearing hother]; exact hcase)
    rw [entered_hearing hother, ← State.entered] at hentered
    refine ⟨?_, fun hnone => ?_, fun hitems hbeacons => ?_⟩
    · rw [hcustody, hentered]
      exact fun r hr => of_decide_eq_true (List.mem_filter.mp hr).2
    · rw [hrequests hnone]
      exact hqueue
    · rw [(hspans hitems hbeacons).1, hentered]
      rfl
  · obtain ⟨hcustody, hkept, -⟩ := accepted_spans s f
    obtain ⟨htable, houtbox⟩ := hkept hspans hbeacons
    have hcase := (hearing_lost hlost).1 hsame
    obtain ⟨u, husame, hentered⟩ := headed_spans_returned (s := s.withLink s.link.hunt) (h := f.header)
      (blockSlice f.blocks) (by rw [entered_hearing hother]; exact hcase)
    rw [← State.entered] at hentered
    rw [htable, houtbox, hcustody, hentered, returnReport_table, husame]
    refine ⟨fun r hr hroom => ?_, rfl⟩
    have hfound := returnReport_found (s := u) (k := f.header.sender) (join := some f.header.join) (r := r)
      (by rw [husame]; exact hr) (by rw [husame]; exact hroom)
    rw [husame] at hfound
    exact hfound
  · exact accepted_measured hlead hs ((accepted_clock s f).1 ▸ ht) hd
  · rw [accepted_realigned hlead hs ht hd hplan, planFrom_eq]
  · rw [accepted_joining hlead hfree hkind hactivity haligned hplan hlowest, planFrom_eq]
  · obtain ⟨hstore, hrings⟩ := accepted_held (f := f) hwait
    rw [hstore, hrings]
    refine ⟨fun b rest hblocks hempty => ⟨_, accepted_page hmirror hblocks hempty, rfl, rfl, rfl, fun l =>
      mirrorPageOf_slots _ _ _ l⟩, fun x y hblocks hfull => ?_, accepted_closed hmirror⟩
    obtain ⟨⟨p, hpages⟩, hdrops, htold⟩ := accepted_displaced hmirror hblocks hfull
    rw [hpages]
    exact ⟨rfl, rfl, hdrops, htold⟩
  · exact accepted_followed hother ht hinactive
  · exact accepted_corrected hother ht hactive harmed

end Sys2Proof.Machine
end
